-- ==== Sys2Proof/Word.lean ====
section
/-! DEFINITION. The fixed-width values of BDX (spec 00_scope.md R9 to R11): every value is an unsigned
integer of a stated width, bit 0 least significant. -/

namespace Sys2Proof

/-- A byte of data memory, a vector lane, a `T4` entry: 8 bits (R9, R10). -/
abbrev Byte := BitVec 8

/-- A register of the register block, a command word, a data-memory address: 32 bits (R8, R21, R40). -/
abbrev Word := BitVec 32

end Sys2Proof
end

