-- ==== Sys2Proof/Syntax.lean ====
section
/-! DEFINITION. The seventeen commands of BDX (spec 30_encoding.md R96), one constructor per row of
spec/opcode_table.json. -/

namespace Sys2Proof

/-- A command (R96). The two immediates of the command word (R92) are operands here: `nch` is the chunk count `NCH`
of an expand command (R94), `vls` the vector length select `VLS` of a vector command (R93). `SRC`, `DST` and `LEN` are
registers, not fields of the word (R90). -/
inductive Instr where
  | xscl (nch : BitVec 16)
  | xw8 (nch : BitVec 16)
  | xw16 (nch : BitVec 16)
  | xw32 (nch : BitVec 16)
  | xw64 (nch : BitVec 16)
  | xben (nch : BitVec 16)
  | xbenk (nch : BitVec 16)
  | xlau3 (nch : BitVec 16)
  | xlau4 (nch : BitVec 16)
  | xlut4 (nch : BitVec 16)
  | xlut8 (nch : BitVec 16)
  | xlut16 (nch : BitVec 16)
  | xvzip (vls : BitVec 2) (nch : BitVec 16)
  | xvtbl (vls : BitVec 2) (nch : BitVec 16)
  | tbld4
  | tbld8
  | tbld16
deriving DecidableEq, Repr

end Sys2Proof
end

