-- ==== Sys2Proof/Decode.lean ====
section
/-! DEFINITION. The command word (spec 30_encoding.md): its fields, the total decoder of R97, which rejects by name,
and the encoder of R91 and R102. -/

namespace Sys2Proof

/-- `OP = CMD[7:0]` (R91). -/
def opField (w : Word) : BitVec 8 := w.extractLsb' 0 8

/-- `VLS = CMD[9:8]` (R91). -/
def vlsField (w : Word) : BitVec 2 := w.extractLsb' 8 2

/-- `RSV = CMD[15:10]` (R91). -/
def rsvField (w : Word) : BitVec 6 := w.extractLsb' 10 6

/-- `NCH = CMD[31:16]` (R91). -/
def nchField (w : Word) : BitVec 16 := w.extractLsb' 16 16

/-- Why a word is no command: the tests of R97, in its order. Every one of them raises `F_ILLEGAL` (R98). -/
inductive DecodeError where
  /-- R97 (1): `OP` is not one of the seventeen values. -/
  | unassignedOpcode
  /-- R97 (2): `RSV` is not 0. -/
  | reservedBits
  /-- R97 (3): `VLS = 3` in a vector command, or `VLS != 0` in any other. -/
  | badVectorLength
  /-- R97 (4): `NCH = 0` in an expand command, or `NCH != 0` in a table-build command. -/
  | badChunkCount
deriving DecidableEq, Repr

/-- The three shapes of R95: twelve expand commands with `NCH` free, two vector commands with `VLS` and `NCH` free, three
table-build commands with the whole word fixed. -/
inductive Format where
  | expand (mk : BitVec 16 → Instr)
  | vector (mk : BitVec 2 → BitVec 16 → Instr)
  | tableBuild (i : Instr)

/-- The opcode map of R96. -/
def formatOf (op : BitVec 8) : Option Format :=
  match op.toNat with
  | 0x01 => some (.expand .xscl)
  | 0x02 => some (.expand .xw8)
  | 0x03 => some (.expand .xw16)
  | 0x04 => some (.expand .xw32)
  | 0x05 => some (.expand .xw64)
  | 0x06 => some (.expand .xben)
  | 0x07 => some (.expand .xbenk)
  | 0x08 => some (.expand .xlau3)
  | 0x09 => some (.expand .xlau4)
  | 0x0A => some (.expand .xlut4)
  | 0x0B => some (.expand .xlut8)
  | 0x0C => some (.expand .xlut16)
  | 0x0D => some (.vector .xvzip)
  | 0x0E => some (.vector .xvtbl)
  | 0x10 => some (.tableBuild .tbld4)
  | 0x11 => some (.tableBuild .tbld8)
  | 0x12 => some (.tableBuild .tbld16)
  | _ => none

/-- The total decoder of R97, its tests in the order the rule gives. -/
def decode (w : Word) : Except DecodeError Instr :=
  match formatOf (opField w) with
  | none => .error .unassignedOpcode
  | some f =>
    if rsvField w ≠ 0 then .error .reservedBits
    else match f with
    | .expand mk =>
      if vlsField w ≠ 0 then .error .badVectorLength
      else if nchField w = 0 then .error .badChunkCount
      else .ok (mk (nchField w))
    | .vector mk =>
      if vlsField w = 3 then .error .badVectorLength
      else if nchField w = 0 then .error .badChunkCount
      else .ok (mk (vlsField w) (nchField w))
    | .tableBuild i =>
      if vlsField w ≠ 0 then .error .badVectorLength
      else if nchField w ≠ 0 then .error .badChunkCount
      else .ok i

/-- The word with the given fields, `RSV = 0` (R91). -/
def commandWord (nch : BitVec 16) (vls : BitVec 2) (op : BitVec 8) : Word :=
  nch ++ (0#6 ++ (vls ++ op))

/-- The command word of a command: `NCH * 2^16 + VLS * 2^8 + OP` (R102), the opcodes from R96. -/
def encode : Instr → Word
  | .xscl nch => commandWord nch 0 0x01
  | .xw8 nch => commandWord nch 0 0x02
  | .xw16 nch => commandWord nch 0 0x03
  | .xw32 nch => commandWord nch 0 0x04
  | .xw64 nch => commandWord nch 0 0x05
  | .xben nch => commandWord nch 0 0x06
  | .xbenk nch => commandWord nch 0 0x07
  | .xlau3 nch => commandWord nch 0 0x08
  | .xlau4 nch => commandWord nch 0 0x09
  | .xlut4 nch => commandWord nch 0 0x0A
  | .xlut8 nch => commandWord nch 0 0x0B
  | .xlut16 nch => commandWord nch 0 0x0C
  | .xvzip vls nch => commandWord nch vls 0x0D
  | .xvtbl vls nch => commandWord nch vls 0x0E
  | .tbld4 => commandWord 0 0 0x10
  | .tbld8 => commandWord 0 0 0x11
  | .tbld16 => commandWord 0 0 0x12

/-- The mnemonic of a command (R96). -/
def mnemonic : Instr → String
  | .xscl _ => "XSCL"
  | .xw8 _ => "XW8"
  | .xw16 _ => "XW16"
  | .xw32 _ => "XW32"
  | .xw64 _ => "XW64"
  | .xben _ => "XBEN"
  | .xbenk _ => "XBENK"
  | .xlau3 _ => "XLAU3"
  | .xlau4 _ => "XLAU4"
  | .xlut4 _ => "XLUT4"
  | .xlut8 _ => "XLUT8"
  | .xlut16 _ => "XLUT16"
  | .xvzip _ _ => "XVZIP"
  | .xvtbl _ _ => "XVTBL"
  | .tbld4 => "TBLD4"
  | .tbld8 => "TBLD8"
  | .tbld16 => "TBLD16"

/-- The vector-length suffix of R102: `.128`, `.256`, `.512` for `VLS` 0, 1, 2. -/
def vectorSuffix (vls : BitVec 2) : String :=
  "." ++ Nat.repr (128 * 2 ^ vls.toNat)

/-- The text of a command in the syntax of R102: `MNEMONIC[.VL] NCH`, nothing after the mnemonic of a table build. -/
def assembly (i : Instr) : String :=
  mnemonic i ++ match i with
  | .xvzip vls nch | .xvtbl vls nch => vectorSuffix vls ++ " " ++ Nat.repr nch.toNat
  | .xscl nch | .xw8 nch | .xw16 nch | .xw32 nch | .xw64 nch | .xben nch | .xbenk nch | .xlau3 nch | .xlau4 nch
  | .xlut4 nch | .xlut8 nch | .xlut16 nch => " " ++ Nat.repr nch.toNat
  | .tbld4 | .tbld8 | .tbld16 => ""

/-- The 32-bit command word whose bits are the low `nbits` bits of `w`, every higher bit 0. A command word is a register
value, not bytes in memory, so there is no byte order to lay it out in (R22, R63). -/
def tableWord (nbits w : Nat) : Word := BitVec.ofNat 32 (w % 2 ^ nbits)

/-- The instruction the decoder reads from the word of an opcode-table row; `none` where it refuses. -/
def decodeTableWord (nbits w : Nat) : Option Instr :=
  match decode (tableWord nbits w) with
  | .ok i => some i
  | .error _ => none

end Sys2Proof
end

