-- ==== Sys2Proof/Config.lean ====
section
/-! DEFINITION. What an implementation of BDX fixes (spec 00_scope.md R8, the OPEN parameters), and the free
values: uninterpreted constants for what the spec leaves open. -/

namespace Sys2Proof.Config

/-- `ADDR_BITS = 32` (R8, fixed): data-memory addresses run from 0 to `addressSpace - 1` (R40). -/
def addressSpace : Nat := 2 ^ 32

/-- A run of byte addresses `base .. base + size - 1`. -/
structure Region where
  base : Nat
  size : Nat
deriving DecidableEq, Repr

/-- The two texts that give a lane operation: its numbered rule in 43_vector.md, and the decision in 92_eei_decisions.md that
the rule points to. They differ on operands that no command gives (log entry 14). -/
inductive Reading where
  | rule | decision
deriving DecidableEq, Repr

/-- The OPEN parameters of R8 that a rule of the spec reads.  They are plain data and stand in `State` (field
`params`, changed by no step), so that a statement about every state holds for every hardware. `unbacked` lists the
addresses where `MEM_OK` is false; every predicate on the finite address space can be listed so.
`lookupReading` and `interleaveReading` are the model's own: which text the hardware follows where R226 and D23, R228 and D24
differ (log entry 14); a statement about every state holds for both. -/
structure Params where
  hasVl128 : Bool
  hasVl256 : Bool
  hasVl512 : Bool
  unbacked : List Region
  lookupReading : Reading
  interleaveReading : Reading
deriving DecidableEq, Repr

/-- The defaults of 92_eei_decisions.md ("Open parameters, in one place"): all three vector lengths, `MEM_OK` true
everywhere. The lane operations are at the decisions of the same file (log entry 14). -/
def Params.standard : Params :=
  { hasVl128 := true, hasVl256 := true, hasVl512 := true, unbacked := []
    lookupReading := .decision, interleaveReading := .decision }

/-- FREE VALUE (log entry 3). Which chunk worker moves when no event of the schedule says so: R266 leaves the order
open and demands that every order be allowed (93_implementation_defined.md U7). Applied to `State.tick`. -/
opaque freePick : Nat → Nat

/-- FREE VALUE (log entry 6). An entry of `T4` that was never filled (10_state.md R34: the contents of a table whose
valid bit is 0 are unspecified). -/
opaque unbuiltT4 : BitVec 4 → BitVec 8

/-- FREE VALUE (log entry 6). An entry of `T8` that was never filled (R34). -/
opaque unbuiltT8 : BitVec 8 → BitVec 16

/-- FREE VALUE (log entry 6). An entry of `T16` that was never filled (R34). -/
opaque unbuiltT16 : BitVec 16 → BitVec 32

/-- FREE VALUE (log entry 7). A lane of `VT` that was never loaded (10_state.md R39, R43: unspecified). -/
opaque unloadedVT : Nat → BitVec 8

end Sys2Proof.Config
end

