-- ==== Sys2Proof/Machine/State.lean ====
section
/-! DEFINITION. Everything the spec gives BDX to hold (10_state.md R20), as plain data, and the state after reset
(R43); with it the data memory it shares with the host (R40), the script of what the host and the schedule do next, and
the names of the outcomes that are no next state. -/

namespace Sys2Proof.Machine

/-- The eight registers of the register block, by name (R13, R22). -/
inductive Reg where
  | src | dst | len | cmd | status | finfo | cap | reserved7
deriving DecidableEq, Repr

/-- The number of a register in the register space (R22, R41). -/
def Reg.index : Reg → Nat
  | .src => 0 | .dst => 1 | .len => 2 | .cmd => 3 | .status => 4 | .finfo => 5 | .cap => 6 | .reserved7 => 7

/-- The fault codes `FCODE` (R30, R281). Codes 6 to 15 are never produced, so they have no constructor. -/
inductive FCode where
  | none | illegal | unavail | range | overlap | length
deriving DecidableEq, Repr

/-- What moves next. The host's own actions (R22, R303, R310: register accesses, its accesses to the data memory, reset)
and the turns of BDX that the schedule grants explicitly. -/
inductive Event where
  /-- `WriteReg(n, v)` (R22). -/
  | writeReg (r : Reg) (v : Word)
  /-- `ReadReg(n)` (R22). -/
  | readReg (r : Reg)
  /-- The host writes a byte of data memory (R40, R76). -/
  | memWrite (a : Word) (v : Byte)
  /-- The host reads a byte of data memory (R40, R77). -/
  | memRead (a : Word)
  /-- The host's `WAIT` (R103): poll `STATUS` until `BUSY = 0`. BDX moves while it polls. -/
  | wait
  /-- `Reset` (R310). -/
  | reset
  /-- BDX takes one of its own steps, if it has one: the completion, or the step of a chunk with a group left, `pick`
  saying which of them (R127, R128, R266). -/
  | bdx (pick : Nat)
deriving DecidableEq, Repr

/-- What a read returned to the host: the value of a register, or of a byte of data memory. -/
inductive Observation where
  | reg (r : Reg) (v : Word)
  | mem (a : Word) (v : Byte)
deriving DecidableEq, Repr

/-- The data memory (R40): the bytes that differ from `Memory.blank`, by rising address. -/
abbrev Memory := List Host.Cell

/-- What an address the list does not hold reads as. DESIGN CHOICE, unsafe (log entry 2): the spec gives the data memory
no contents of its own (R43: reset does not affect it, it belongs to the host). -/
def Memory.blank : Byte := 0

/-- The canonical form from address `lo` on: addresses strictly rise from `lo`, lie in the address space, and no entry
equals what an unlisted address reads as. -/
def Memory.wfFrom : Nat → Memory → Bool
  | _, [] => true
  | lo, (a, v) :: rest =>
    decide (lo ≤ a) && decide (a < Config.addressSpace) && decide (v ≠ Memory.blank) && Memory.wfFrom (a + 1) rest

/-- The canonical form of a memory. -/
def Memory.wf (m : Memory) : Bool := Memory.wfFrom 0 m

/-- The state of BDX, of the data memory, and of the script that drives them. -/
structure State where
  /-- `SRC`, register 0 (R21). -/
  src : Word
  /-- `DST`, register 1 (R21). -/
  dst : Word
  /-- `LEN`, register 2 (R21). -/
  len : Word
  /-- `CMD`, register 3 (R26). -/
  cmd : Word
  /-- `STATUS.BUSY`, bit 0 (R27). -/
  busy : Bool
  /-- `STATUS.DONE`, bit 1 (R27). -/
  done : Bool
  /-- `STATUS.FAULT`, bit 2 (R27). -/
  fault : Bool
  /-- `STATUS.FEVER`, bit 3, sticky (R29). -/
  fever : Bool
  /-- `STATUS.BUSYERR`, bit 4, sticky (R29). -/
  busyErr : Bool
  /-- `STATUS.FCODE`, bits 11:8 (R30). -/
  fcode : FCode
  /-- `FINFO`, register 5 (R31). -/
  finfo : Word
  /-- `STATUS.TV4`, bit 16: table `T4` is built (R34). -/
  tv4 : Bool
  /-- `STATUS.TV8`, bit 17: table `T8` is built (R34). -/
  tv8 : Bool
  /-- `STATUS.TV16`, bit 18: table `T16` is built (R34). -/
  tv16 : Bool
  /-- Table `T4`: the entries filled, by key; none before it is built (R33). -/
  t4 : List (BitVec 8)
  /-- Table `T8` (R33). -/
  t8 : List (BitVec 16)
  /-- Table `T16` (R33). -/
  t16 : List (BitVec 32)
  /-- The chunk cursors `POS[0] .. POS[n-1]` of a running expand command; none otherwise (R25). -/
  pos : List Nat
  /-- The vector register `VT`, lane by lane; no lane before it is loaded (R38, R236). -/
  vt : List Byte
  /-- The data memory, shared with the host (R40). -/
  mem : Memory
  /-- The constants of the hardware: what `CAP` shows, `MEM_OK` (R8, R32), and the texts followed for two lane
  operations (log entry 14). No step changes them. -/
  params : Config.Params
  /-- The model's own: what the host and the schedule do next, first event first. -/
  events : List Event
  /-- The model's own: what the host's reads have returned, first read first. -/
  seen : List Observation
  /-- The model's own: whose turn it is, an index into the chunks that have a group left (R266). -/
  pick : Nat
  /-- The model's own: counts the uses of the free value `Config.freePick`. -/
  tick : Nat
deriving DecidableEq, Repr

/-- Why the machine stops with a fault. None of these is a fault of BDX (R280: an `FCODE` fault is a next state). No run
that starts from reset meets one; they close the step function on states that no run reaches. -/
inductive Fault where
  /-- Raised by a chunk step whose group or output block passes the end of the address space (R72): safe, a start step
  refuses such a range (R286), so an accepted command never meets it. -/
  | outsideAddressSpace (a : Nat)
  /-- Raised by a chunk step whose group or output block touches an address where `MEM_OK` is false: safe, for the same
  reason (R286). -/
  | unbackedMemory (a : Nat)
  /-- Raised by a turn of BDX in a state with `BUSY = 1` whose `CMD` is no command: safe, only an accepted command sets
  `BUSY` (R124) and `CMD` cannot change under it (R23). -/
  | busyWithoutCommand
deriving DecidableEq, Repr

/-- Why the model gives a step no meaning. -/
inductive Refusal where
  /-- An instruction with no meaning yet: raised by `exec` alone. Safe. -/
  | notModelled (mnemonic : String)
  /-- The host accesses an address where `MEM_OK` is false: raised by the host's memory events alone. Safe: what stands at
  such an address is the platform's matter (R319) and the spec gives it no behaviour. -/
  | hostAccessToUnbackedMemory (a : Word)
deriving DecidableEq, Repr

/-- The state right after reset (R43): every register and status bit 0, no table built, no cursor, nothing loaded in `VT`.
`params` is the spec's default (log entry 4); `mem`, `events`, `seen`, `pick` and `tick` belong to the host and the model
(log entries 2, 5 and 3). -/
def State.reset : State :=
  { src := 0, dst := 0, len := 0, cmd := 0
    busy := false, done := false, fault := false, fever := false, busyErr := false
    fcode := .none, finfo := 0
    tv4 := false, tv8 := false, tv16 := false
    t4 := [], t8 := [], t16 := []
    pos := [], vt := []
    mem := [], params := Config.Params.standard
    events := [], seen := [], pick := 0, tick := 0 }

end Sys2Proof.Machine
end

