-- ==== Sys2Proof/Machine/Flags.lean ====
section
/-! DEFINITION. The views the host has of the status bits (spec 10_state.md R27, R30), of `CAP` (R32) and of the whole
register block (R22). BDX has no other flag: no kernel sets one and no command reads one (R28). -/

namespace Sys2Proof.Machine

/-- The 4-bit code of a fault cause (R30). -/
def FCode.code : FCode → BitVec 4
  | .none => 0 | .illegal => 1 | .unavail => 2 | .range => 3 | .overlap => 4 | .length => 5

/-- The 32-bit value of `STATUS` (R27): reserved bits read as 0. -/
def statusWord (s : State) : Word :=
  0#13 ++ (BitVec.ofBool s.tv16 ++ (BitVec.ofBool s.tv8 ++ (BitVec.ofBool s.tv4 ++
    (0#4 ++ (s.fcode.code ++ (0#3 ++ (BitVec.ofBool s.busyErr ++ (BitVec.ofBool s.fever ++
      (BitVec.ofBool s.fault ++ (BitVec.ofBool s.done ++ BitVec.ofBool s.busy))))))))))

/-- The 32-bit value of `CAP` (R32): bits 0, 1, 2 say which vector lengths exist, the rest is 0. -/
def capWord (p : Config.Params) : Word :=
  0#29 ++ (BitVec.ofBool p.hasVl512 ++ (BitVec.ofBool p.hasVl256 ++ BitVec.ofBool p.hasVl128))

/-- `ReadReg(n)` (R22, R35): what a read of a register returns. It changes nothing. -/
def readReg (s : State) : Reg → Word
  | .src => s.src
  | .dst => s.dst
  | .len => s.len
  | .cmd => s.cmd
  | .status => statusWord s
  | .finfo => s.finfo
  | .cap => capWord s.params
  | .reserved7 => 0

end Sys2Proof.Machine
end

