-- ==== Sys2Proof/Machine/Operands.lean ====
section
/-! DEFINITION. What a command works on: the ranges its operand registers name and the checks on them (spec
60_exceptions.md R285 to R288), the chunk partition (44_chunk_dispatch.md R261), the cut of a chunk into groups
(40_command_and_oracle.md R126, 43_vector.md R231), and the columns of the command table that these read. Address and
length arithmetic is on unbounded integers (00_scope.md R12). -/

namespace Sys2Proof.Machine

/-! ## The ranges -/

/-- Two runs of byte addresses share a byte. -/
def rangesMeet (a n b m : Nat) : Bool :=
  decide (0 < n) && decide (0 < m) && decide (a < b + m) && decide (b < a + n)

/-- `MEM_OK(a)` (R8): the address is backed by ordinary memory. -/
def memOk (p : Config.Params) (a : Nat) : Bool :=
  p.unbacked.all fun r => !(decide (r.base ≤ a) && decide (a < r.base + r.size))

/-- `MEM_OK` holds at each of the `n` addresses from `a` on. -/
def memOkRange (p : Config.Params) (a n : Nat) : Bool :=
  p.unbacked.all fun r => !rangesMeet a n r.base r.size

/-- A run of `n` bytes at `a` is bad (R286): it is not empty and passes `2^32` or touches unbacked memory. -/
def rangeBad (p : Config.Params) (a n : Nat) : Bool :=
  decide (0 < n) && (decide (Config.addressSpace < a + n) || !memOkRange p a n)

/-- `in_bad` of R286: the input range `[SRC, SRC + LEN)`. -/
def inputBad (s : State) : Bool := rangeBad s.params s.src.toNat s.len.toNat

/-- `out_bad` of R286: the output range `[DST, DST + 2*LEN)`. -/
def outputBad (s : State) : Bool := rangeBad s.params s.dst.toNat (2 * s.len.toNat)

/-- The condition of `F_OVERLAP` (R287): `LEN > 0`, `SRC < DST + 2*LEN` and `DST < SRC + LEN`. -/
def rangesOverlap (s : State) : Bool :=
  decide (0 < s.len.toNat) && decide (s.src.toNat < s.dst.toNat + 2 * s.len.toNat) &&
    decide (s.dst.toNat < s.src.toNat + s.len.toNat)

/-! ## The chunk partition -/

/-- `c = ceil(L / n)`, the nominal chunk size (R261). -/
def chunkSize (L n : Nat) : Nat := (L + n - 1) / n

/-- `a_k = min(k * c, L)`, the input offset of chunk `k` (R261). -/
def chunkStart (L n k : Nat) : Nat := min (k * chunkSize L n) L

/-- `len_k = min((k + 1) * c, L) - a_k`, the length of chunk `k` (R261). -/
def chunkLen (L n k : Nat) : Nat := min ((k + 1) * chunkSize L n) L - chunkStart L n k

/-- The lowest-numbered chunk whose length is no multiple of `g`: `min(bad)` of R288. -/
def firstBadChunk (g L n : Nat) : Option Nat :=
  (List.range n).find? fun k => chunkLen L n k % g != 0

/-! ## The columns of the command table -/

/-- The three lookup tables (R33). -/
inductive TableName where
  | t4 | t8 | t16
deriving DecidableEq, Repr

/-- `n = NCH`, the number of chunks of an expand command (R94, R260); a table-build command has none. -/
def chunkCount : Instr → Nat
  | .xscl nch => nch.toNat
  | .xw8 nch => nch.toNat
  | .xw16 nch => nch.toNat
  | .xw32 nch => nch.toNat
  | .xw64 nch => nch.toNat
  | .xben nch => nch.toNat
  | .xbenk nch => nch.toNat
  | .xlau3 nch => nch.toNat
  | .xlau4 nch => nch.toNat
  | .xlut4 nch => nch.toNat
  | .xlut8 nch => nch.toNat
  | .xlut16 nch => nch.toNat
  | .xvzip _ nch => nch.toNat
  | .xvtbl _ nch => nch.toNat
  | .tbld4 => 0
  | .tbld8 => 0
  | .tbld16 => 0

/-- `gran(K)` (R126): every chunk's length must be a multiple of it. -/
def granularity : Instr → Nat
  | .xscl _ => 1
  | .xw8 _ => 1
  | .xw16 _ => 2
  | .xw32 _ => 4
  | .xw64 _ => 8
  | .xben _ => 1
  | .xbenk _ => 1
  | .xlau3 _ => 1
  | .xlau4 _ => 1
  | .xlut4 _ => 1
  | .xlut8 _ => 1
  | .xlut16 _ => 1
  | .xvzip _ _ => 1
  | .xvtbl _ _ => 1
  | .tbld4 => 1
  | .tbld8 => 1
  | .tbld16 => 1

/-- The table a command names (R194). -/
def tableNamed : Instr → Option TableName
  | .xscl _ => none
  | .xw8 _ => none
  | .xw16 _ => none
  | .xw32 _ => none
  | .xw64 _ => none
  | .xben _ => none
  | .xbenk _ => none
  | .xlau3 _ => none
  | .xlau4 _ => none
  | .xlut4 _ => some .t4
  | .xlut8 _ => some .t8
  | .xlut16 _ => some .t16
  | .xvzip _ _ => none
  | .xvtbl _ _ => some .t4
  | .tbld4 => some .t4
  | .tbld8 => some .t8
  | .tbld16 => some .t16

/-- The vector length select of a vector command (R93). -/
def vectorSelect : Instr → Option (BitVec 2)
  | .xscl _ => none
  | .xw8 _ => none
  | .xw16 _ => none
  | .xw32 _ => none
  | .xw64 _ => none
  | .xben _ => none
  | .xbenk _ => none
  | .xlau3 _ => none
  | .xlau4 _ => none
  | .xlut4 _ => none
  | .xlut8 _ => none
  | .xlut16 _ => none
  | .xvzip vls _ => some vls
  | .xvtbl vls _ => some vls
  | .tbld4 => none
  | .tbld8 => none
  | .tbld16 => none

/-- `NB = 16 * 2^VLS`, the number of byte lanes (R93). -/
def laneCount (vls : BitVec 2) : Nat := 16 * 2 ^ vls.toNat

/-- `CAP[VLS] = 1` (R285): the hardware has the vector length a command asks for; a command that is no vector command asks
for none. -/
def available (p : Config.Params) (i : Instr) : Bool :=
  match vectorSelect i with
  | none => true
  | some vls => (capWord p).getLsbD vls.toNat

/-! ## Head, body and tail, and the groups of a chunk -/

/-- `h = min(len_k, (-s_k) mod NB)`, the number of head bytes (R231). -/
def headLen (nb sk len : Nat) : Nat := min len ((nb - sk % nb) % nb)

/-- `nv = floor((len_k - h) / NB)`, the number of full vectors (R231). -/
def bodyCount (nb sk len : Nat) : Nat := (len - headLen nb sk len) / nb

/-- `gsize(s_k, p, len_k)` of a vector command (R231). -/
def vectorGroupSize (nb sk len p : Nat) : Nat :=
  if p < headLen nb sk len then 1
  else if p < headLen nb sk len + bodyCount nb sk len * nb then nb
  else 1

/-- `gsize_K(s_k, p, len_k)`: the size of the group that begins at offset `p` of a chunk (R126, R201, R231). -/
def groupSize (i : Instr) (sk len p : Nat) : Nat :=
  match i with
  | .xscl _ => 1
  | .xw8 _ => 1
  | .xw16 _ => 2
  | .xw32 _ => 4
  | .xw64 _ => 8
  | .xben _ => 1
  | .xbenk _ => 1
  | .xlau3 _ => 1
  | .xlau4 _ => 1
  | .xlut4 _ => 1
  | .xlut8 _ => 1
  | .xlut16 _ => if 2 ≤ len - p then 2 else 1
  | .xvzip vls _ => vectorGroupSize (laneCount vls) sk len p
  | .xvtbl vls _ => vectorGroupSize (laneCount vls) sk len p
  | .tbld4 => 1
  | .tbld8 => 1
  | .tbld16 => 1

/-! ## The chunk frame -/

/-- `len_k` of the running command (R125). -/
def chunkLength (i : Instr) (s : State) (k : Nat) : Nat := chunkLen s.len.toNat (chunkCount i) k

/-- `s_k = SRC + a_k`, where chunk `k`'s input sub-range starts (R125). -/
def chunkSource (i : Instr) (s : State) (k : Nat) : Nat := s.src.toNat + chunkStart s.len.toNat (chunkCount i) k

/-- `d_k = DST + 2*a_k`, where chunk `k`'s output sub-range starts (R125). -/
def chunkTarget (i : Instr) (s : State) (k : Nat) : Nat := s.dst.toNat + 2 * chunkStart s.len.toNat (chunkCount i) k

/-- `POS[k]` (R25). -/
def cursor (s : State) (k : Nat) : Nat := s.pos.getD k 0

/-- `g`, the size of the next group of chunk `k` (R127). -/
def nextGroupSize (i : Instr) (s : State) (k : Nat) : Nat :=
  groupSize i (chunkSource i s k) (chunkLength i s k) (cursor s k)

/-- The address of the next input group of chunk `k`: `s_k + p` (R137). -/
def nextInput (i : Instr) (s : State) (k : Nat) : Nat := chunkSource i s k + cursor s k

/-- The address of the next output block of chunk `k`: `d_k + 2*p` (R137). -/
def nextOutput (i : Instr) (s : State) (k : Nat) : Nat := chunkTarget i s k + 2 * cursor s k

/-- The chunks that have a group left, by rising number: those with `POS[k] < len_k` (R127). -/
def chunksWithWork (i : Instr) (s : State) : List Nat :=
  (List.range (chunkCount i)).filter fun k => decide (cursor s k < chunkLength i s k)

end Sys2Proof.Machine
end

