-- ==== Sys2Proof/Machine/Transform.lean ====
section
/-! DEFINITION. The transform BDX computes, bit doubling (spec 40_command_and_oracle.md R120 to R122), and the big-endian
packing of byte groups into words (00_scope.md R14, 20_memory.md R61). -/

namespace Sys2Proof.Machine

/-- `spread_N(v)` as a `T`-bit value, `T = 2N` (R120): bit `b` of `v` at position `2b`, 0 at every odd position. -/
def spread (T : Nat) {N : Nat} (v : BitVec N) : BitVec T :=
  (List.range N).foldl (fun r b => if v.getLsbD b then r ||| (1#T <<< (2 * b)) else r) 0#T

/-- `dbl_N(v)` as a `T`-bit value, `T = 2N` (R121): `spread_N(v) | (spread_N(v) << 1)`. -/
def dbl (T : Nat) {N : Nat} (v : BitVec N) : BitVec T :=
  spread T v ||| (spread T v <<< 1)

/-- The `T`-bit word of a group of bytes, the first byte most significant (R14, R61). -/
def packBE (T : Nat) (bs : List Byte) : BitVec T :=
  bs.foldl (fun w b => (w <<< 8) ||| b.setWidth T) 0#T

/-- The low `n` bytes of a word, the most significant first (R14, R61). -/
def unpackBE (n : Nat) {T : Nat} (w : BitVec T) : List Byte :=
  (List.range n).map fun i => w.extractLsb' (8 * (n - 1 - i)) 8

/-- `expand(in)` (R122): `out[2i] = dbl_8(in[i])[15:8]`, `out[2i+1] = dbl_8(in[i])[7:0]`. -/
def expand : List Byte → List Byte
  | [] => []
  | v :: rest => unpackBE 2 (dbl 16 v) ++ expand rest

/-- `v[7:4]`, the high nibble (R10). -/
def highNibble (v : Byte) : BitVec 4 := v.extractLsb' 4 4

/-- `v[3:0]`, the low nibble (R10). -/
def lowNibble (v : Byte) : BitVec 4 := v.extractLsb' 0 4

end Sys2Proof.Machine
end

