-- ==== Sys2Proof/Machine/Ops.lean ====
section
/-! DEFINITION. The named operations over memory, registers and tables that every command shares: reads and writes of the
data memory, the top of a start step, taking a fault, completion, reset, and the table cascade. -/

namespace Sys2Proof.Machine

/-! ## The data memory -/

/-- `Mem[a]` (R40). -/
def Memory.read : Memory → Nat → Byte
  | [], _ => Memory.blank
  | (b, w) :: rest, a => if a = b then w else Memory.read rest a

/-- `Mem[a] <- v` (R40), the list kept in its canonical form. -/
def Memory.write : Memory → Nat → Byte → Memory
  | [], a, v => if v = Memory.blank then [] else [(a, v)]
  | (b, w) :: rest, a, v =>
    if a < b then (if v = Memory.blank then (b, w) :: rest else (a, v) :: (b, w) :: rest)
    else if a = b then (if v = Memory.blank then rest else (a, v) :: rest)
    else (b, w) :: Memory.write rest a v

/-- The `n` bytes at `a`, `a + 1`, …, in address order. -/
def Memory.readBytes (m : Memory) (a n : Nat) : List Byte :=
  (List.range n).map fun i => Memory.read m (a + i)

/-- The bytes of a list to `a`, `a + 1`, …, in address order. -/
def Memory.writeBytes : Memory → Nat → List Byte → Memory
  | m, _, [] => m
  | m, a, v :: rest => Memory.writeBytes (Memory.write m a v) (a + 1) rest

/-- What stops an access of BDX to the `n` bytes at `a`: an address that does not exist, or one that is not backed. The
checks of a start step (R286) rule both out for an accepted command (R14, R137). -/
def accessFault (s : State) (a n : Nat) : Option Fault :=
  if Config.addressSpace < a + n then some (.outsideAddressSpace a)
  else if memOkRange s.params a n then none
  else some (.unbackedMemory a)

/-! ## Start, fault, completion, reset -/

/-- The top of a start step (R124): `CMD <- w`, and `DONE`, `FAULT`, `FCODE` and `FINFO` cleared (R28). This is also all
that ends a fault's report (R292): there is no return from a fault and nothing to restore. -/
def beginCommand (w : Word) (s : State) : State :=
  { s with cmd := w, done := false, fault := false, fcode := .none, finfo := 0 }

/-- Taking a fault (R15, R290): `FAULT`, `FEVER`, `FCODE` and `FINFO` are written, and nothing else. No program counter,
cause stack, vector, mode or mask exists to save or change. -/
def raiseFault (code : FCode) (info : Word) (s : State) : State :=
  { s with fault := true, fever := true, fcode := code, finfo := info }

/-- The completion step (R128): `BUSY <- 0`, `DONE <- 1`, and the cursors cease to exist. -/
def completeCommand (s : State) : State :=
  { s with busy := false, done := true, pos := [] }

/-- `Reset` (R310 to R312): every piece of BDX state to its reset value; the hardware's constants and the data memory stay,
and so does what is the model's own. -/
def applyReset (s : State) : State :=
  { State.reset with
    params := s.params, mem := s.mem, events := s.events, seen := s.seen, pick := s.pick, tick := s.tick }

/-! ## The lookup tables -/

/-- `T4[k]` (R16, R33). -/
def readT4 (s : State) (k : BitVec 4) : BitVec 8 := s.t4.getD k.toNat (Config.unbuiltT4 k)

/-- `T8[k]` (R16, R33). -/
def readT8 (s : State) (k : BitVec 8) : BitVec 16 := s.t8.getD k.toNat (Config.unbuiltT8 k)

/-- `T16[k]` (R16, R33). -/
def readT16 (s : State) (k : BitVec 16) : BitVec 32 := s.t16.getD k.toNat (Config.unbuiltT16 k)

/-- The entries `build4` fills in: `T4[x] <- dbl_4(x)` (R192). -/
def entries4 : List (BitVec 8) :=
  (List.range 16).map fun x => dbl 8 (BitVec.ofNat 4 x)

/-- The entries `build8` fills in: `T8[x] <- T4[x[7:4]] : T4[x[3:0]]` (R192). -/
def entries8 (s : State) : List (BitVec 16) :=
  (List.range 256).map fun x => readT4 s (BitVec.ofNat 4 (x / 16)) ++ readT4 s (BitVec.ofNat 4 x)

/-- The entries `build16` fills in: `T16[x] <- T8[x[15:8]] : T8[x[7:0]]` (R192). -/
def entries16 (s : State) : List (BitVec 32) :=
  (List.range 65536).map fun x => readT8 s (BitVec.ofNat 8 (x / 256)) ++ readT8 s (BitVec.ofNat 8 x)

/-- `build4()` (R192). -/
def build4 (s : State) : State :=
  if s.tv4 then s else { s with t4 := entries4, tv4 := true }

/-- `build8()` (R192): `T4` first. -/
def build8 (s : State) : State :=
  if (build4 s).tv8 then build4 s else { build4 s with t8 := entries8 (build4 s), tv8 := true }

/-- `build16()` (R192): `T8` first. -/
def build16 (s : State) : State :=
  if (build8 s).tv16 then build8 s else { build8 s with t16 := entries16 (build8 s), tv16 := true }

/-- Builds the table a command names and every smaller one, where not yet built (R194). -/
def buildTables : Option TableName → State → State
  | none, s => s
  | some .t4, s => build4 s
  | some .t8, s => build8 s
  | some .t16, s => build16 s

end Sys2Proof.Machine
end

