-- ==== Sys2Proof/Machine/Command.lean ====
section
/-! DEFINITION. The life of a command (spec 40_command_and_oracle.md R124 to R128): the start step of an expand command
after its word is decoded, the step of one chunk, and completion. Each meaning is one of these shared operations with
the block formula of its kernel. -/

namespace Sys2Proof.Machine

/-- The fault that the start step of an expand command raises, with its `FINFO`; `none` when every check passes. The order
is the fixed one of R124 and R291; `F_ILLEGAL` comes before decoding and is not here. -/
def startFault (i : Instr) (s : State) : Option (FCode × Word) :=
  if !available s.params i then some (.unavail, s.cmd)
  else if inputBad s then some (.range, 0)
  else if outputBad s then some (.range, 1)
  else if rangesOverlap s then some (.overlap, 0)
  else match firstBadChunk (granularity i) s.len.toNat (chunkCount i) with
    | some k => some (.length, BitVec.ofNat 32 k)
    | none => none

/-- `VT[j] <- T4[j mod 16]` for each of the `nb` lanes (43_vector.md R236). -/
def vtImage (nb : Nat) (s : State) : List Byte :=
  (List.range nb).map fun j => readT4 s (BitVec.ofNat 4 j)

/-- XVTBL alone loads `VT` in its start step (R124, R236). -/
def loadVT (i : Instr) (s : State) : State :=
  match i with
  | .xvtbl vls _ => { s with vt := vtImage (laneCount vls) s }
  | .xscl _ | .xw8 _ | .xw16 _ | .xw32 _ | .xw64 _ | .xben _ | .xbenk _ | .xlau3 _ | .xlau4 _ | .xlut4 _ | .xlut8 _
  | .xlut16 _ | .xvzip _ _ | .tbld4 | .tbld8 | .tbld16 => s

/-- What follows the checks in an accepted start step (R124): the tables are built, `VT` is loaded, every cursor is 0, and
`BUSY <- 1`. -/
def launch (i : Instr) (s : State) : State :=
  { loadVT i (buildTables (tableNamed i) s) with
    pos := List.replicate (chunkCount i) 0, busy := true }

/-- The start step of an expand command, its word decoded (R124). -/
def startExpand (i : Instr) (s : State) : State :=
  match startFault i s with
  | some (code, info) => raiseFault code info s
  | none => launch i s

/-- The step of chunk `k` (R127): the next group is read, its block computed and written, the cursor advanced. -/
def chunkStep (i : Instr) (block : State → List Byte → List Byte) (k : Nat) (s : State) :
    Host.Outcome State Fault Refusal :=
  match accessFault s (nextInput i s k) (nextGroupSize i s k),
      accessFault s (nextOutput i s k) (2 * nextGroupSize i s k) with
  | some f, _ => .fault f
  | none, some f => .fault f
  | none, none => .next
    { s with
      mem := s.mem.writeBytes (nextOutput i s k) (block s (s.mem.readBytes (nextInput i s k) (nextGroupSize i s k)))
      pos := s.pos.set k (cursor s k + nextGroupSize i s k) }

/-- A turn of BDX in a running expand command: a chunk with a group left takes a step, `State.pick` saying which one (R127,
R266); when none has, the command completes (R128). -/
def busyExpand (i : Instr) (block : State → List Byte → List Byte) (s : State) : Host.Outcome State Fault Refusal :=
  match chunksWithWork i s with
  | [] => .next (completeCommand s)
  | k :: ks => chunkStep i block ((k :: ks).getD (s.pick % (k :: ks).length) k) s

/-- An expand command with the block formula of its kernel: its start step when BDX is idle, and while it runs, whatever
step comes next (R124, R127, R128). -/
def runExpand (i : Instr) (block : State → List Byte → List Byte) (s : State) : Host.Outcome State Fault Refusal :=
  if s.busy then busyExpand i block s else .next (startExpand i s)

/-- A table-build command (R124, R128): the tables it names and `BUSY <- 1` in the start step, then completion. -/
def runTableBuild (i : Instr) (s : State) : Host.Outcome State Fault Refusal :=
  if s.busy then .next (completeCommand s)
  else .next { buildTables (tableNamed i) s with busy := true }

end Sys2Proof.Machine
end

