-- ==== Sys2Proof/Machine/LookupTable.lean ====
section
/-! DEFINITION. The lookup-table unit (spec 42_lookup_table.md): the three lookup expand commands and the three table-build
commands. -/

namespace Sys2Proof.Machine

/-- `block_XLUT4` (R199): the doubled high nibble, then the doubled low nibble. -/
def blockXlut4 (s : State) (v : List Byte) : List Byte :=
  v.flatMap fun b => [readT4 s (highNibble b), readT4 s (lowNibble b)]

/-- `block_XLUT8` (R200). -/
def blockXlut8 (s : State) (v : List Byte) : List Byte := unpackBE 2 (readT8 s (packBE 8 v))

/-- `block_XLUT16` (R201): a pair is one key, the first byte most significant; an odd last byte is the key `0x00 : byte`, and
the low half of the entry is written. -/
def blockXlut16 (s : State) (v : List Byte) : List Byte :=
  match v with
  | [b] => unpackBE 2 ((readT16 s (b.setWidth 16)).extractLsb' 0 16)
  | pair => unpackBE 4 (readT16 s (packBE 16 pair))

/-- XLUT4 (R199). -/
def execXlut4 (nch : BitVec 16) (s : State) : Host.Outcome State Fault Refusal :=
  runExpand (.xlut4 nch) blockXlut4 s

/-- XLUT8 (R200). -/
def execXlut8 (nch : BitVec 16) (s : State) : Host.Outcome State Fault Refusal :=
  runExpand (.xlut8 nch) blockXlut8 s

/-- XLUT16 (R201). -/
def execXlut16 (nch : BitVec 16) (s : State) : Host.Outcome State Fault Refusal :=
  runExpand (.xlut16 nch) blockXlut16 s

/-- TBLD4 (R196). -/
def execTbld4 (s : State) : Host.Outcome State Fault Refusal := runTableBuild .tbld4 s

/-- TBLD8 (R197). -/
def execTbld8 (s : State) : Host.Outcome State Fault Refusal := runTableBuild .tbld8 s

/-- TBLD16 (R198). -/
def execTbld16 (s : State) : Host.Outcome State Fault Refusal := runTableBuild .tbld16 s

end Sys2Proof.Machine
end

