-- ==== Sys2Proof/Machine/Scalar.lean ====
section
/-! DEFINITION. XSCL, the scalar reference datapath (spec 40_command_and_oracle.md R132). -/

namespace Sys2Proof.Machine

/-- The per-bit loop of R132: `r | (0b11 << 2b)` for every set bit `b`. -/
def scalarLoop (v : Byte) : BitVec 16 :=
  (List.range 8).foldl (fun r b => if v.getLsbD b then r ||| (0b11#16 <<< (2 * b)) else r) 0#16

/-- `block_XSCL` (R132). -/
def blockXscl (_ : State) (v : List Byte) : List Byte :=
  unpackBE 2 (scalarLoop (packBE 8 v))

/-- XSCL (R132). -/
def execXscl (nch : BitVec 16) (s : State) : Host.Outcome State Fault Refusal :=
  runExpand (.xscl nch) blockXscl s

end Sys2Proof.Machine
end

