-- ==== Sys2Proof/Machine/Vector.lean ====
section
/-! DEFINITION. The vector-register unit (spec 43_vector.md): its lane primitives, and XVZIP and XVTBL. A vector register is
its list of byte lanes, lane 0 first (10_state.md R37); all of them but `VT` live inside one step (R39). -/

namespace Sys2Proof.Machine

/-! ## Lane primitives. `VLD` and `VST` are `Memory.readBytes` and `Memory.writeBytes`: lane `j` is the byte at `a + j`
(R223, R229). -/

/-- `VANDI(V, c)` (R224). -/
def vandi (v : List Byte) (c : Byte) : List Byte := v.map fun (x : Byte) => x &&& c

/-- `VSHRI(V, n)` (R225): zeros enter each lane at the top. -/
def vshri (v : List Byte) (n : Nat) : List Byte := v.map fun (x : Byte) => x >>> n

/-- Lane `j` of `VT`. -/
def vtLane (s : State) (j : Nat) : Byte := s.vt.getD j (Config.unloadedVT j)

/-- The lane of the table register that `VTBL16` reads for lane `j` of the index register, the index being `n`: lane `n`
(R226), or lane `n` of the block of 16 lanes that lane `j` lies in (D23). The texts differ: log entry 14. -/
def lookupLane : Config.Reading → Nat → Nat → Nat
  | .rule, _, n => n
  | .decision, j, n => j / 16 * 16 + n

/-- `VTBL16(VT, I)` (R226, D23): every lane of `I` indexes `VT` with its bits 3:0. -/
def vtbl16 (s : State) (idx : List Byte) : List Byte :=
  idx.mapIdx fun j x => vtLane s (lookupLane s.params.lookupReading j (lowNibble x).toNat)

/-- The lanes `A[0], B[0], A[1], B[1], …`. -/
def zipLanes : List Byte → List Byte → List Byte
  | a :: as, b :: bs => a :: b :: zipLanes as bs
  | _, _ => []

/-- `VZIPLO(A, B)` (R227): interleaves the lower halves. -/
def vziplo (nb : Nat) (a b : List Byte) : List Byte := zipLanes (a.take (nb / 2)) (b.take (nb / 2))

/-- `VZIPHI(A, B)` (R227): interleaves the upper halves, across the whole register at every vector length. -/
def vziphi (nb : Nat) (a b : List Byte) : List Byte := zipLanes (a.drop (nb / 2)) (b.drop (nb / 2))

/-- The bits of `a` and `b` interleaved (R228, D24): the bits of `a` in the odd positions and those of `b` in the even ones
(R228), or the other way round (D24). The texts differ: log entry 14. -/
def bzip : Config.Reading → Byte → Byte → BitVec 16
  | .rule, a, b => (spread 16 a <<< 1) ||| spread 16 b
  | .decision, a, b => spread 16 a ||| (spread 16 b <<< 1)

/-- The lanes of `bzip(A[j], B[j])`, the high byte in the even lane (R228). -/
def bzipLanes (r : Config.Reading) : List Byte → List Byte → List Byte
  | a :: as, b :: bs => (bzip r a b).extractLsb' 8 8 :: (bzip r a b).extractLsb' 0 8 :: bzipLanes r as bs
  | _, _ => []

/-- `VBZIPLO(A, B)` (R228). -/
def vbziplo (r : Config.Reading) (nb : Nat) (a b : List Byte) : List Byte :=
  bzipLanes r (a.take (nb / 2)) (b.take (nb / 2))

/-- `VBZIPHI(A, B)` (R228). -/
def vbziphi (r : Config.Reading) (nb : Nat) (a b : List Byte) : List Byte :=
  bzipLanes r (a.drop (nb / 2)) (b.drop (nb / 2))

/-! ## XVZIP -/

/-- The body step of XVZIP (R234): `VO0` and `VO1`, which the two stores put one after the other. -/
def bodyXvzip (r : Config.Reading) (nb : Nat) (va : List Byte) : List Byte :=
  let vo0 := vbziplo r nb va va
  let vo1 := vbziphi r nb va va
  vo0 ++ vo1

/-- `block_XVZIP`: a full vector takes the body step (R234), a head or tail byte the XSCL step (R232, R233). -/
def blockXvzip (vls : BitVec 2) (s : State) (v : List Byte) : List Byte :=
  if v.length = laneCount vls then bodyXvzip s.params.interleaveReading (laneCount vls) v else blockXscl s v

/-- XVZIP (R235). -/
def execXvzip (vls : BitVec 2) (nch : BitVec 16) (s : State) : Host.Outcome State Fault Refusal :=
  runExpand (.xvzip vls nch) (blockXvzip vls) s

/-! ## XVTBL -/

/-- The body step of XVTBL (R237): `VO0` and `VO1`, which the two stores put one after the other. -/
def bodyXvtbl (nb : Nat) (s : State) (va : List Byte) : List Byte :=
  let vlo := vandi va 0x0F
  let vhi := vshri va 4
  let vdl := vtbl16 s vlo
  let vdh := vtbl16 s vhi
  let vo0 := vziplo nb vdh vdl
  let vo1 := vziphi nb vdh vdl
  vo0 ++ vo1

/-- `block_XVTBL`: a full vector takes the body step (R237), a head or tail byte the XLUT4 step (R232, R233). -/
def blockXvtbl (vls : BitVec 2) (s : State) (v : List Byte) : List Byte :=
  if v.length = laneCount vls then bodyXvtbl (laneCount vls) s v else blockXlut4 s v

/-- XVTBL (R238). -/
def execXvtbl (vls : BitVec 2) (nch : BitVec 16) (s : State) : Host.Outcome State Fault Refusal :=
  runExpand (.xvtbl vls nch) (blockXvtbl vls) s

end Sys2Proof.Machine
end

