-- ==== Sys2Proof/Machine/WordParallel.lean ====
section
/-! DEFINITION. The word-parallel unit (spec 41_word_parallel.md): the mask-and-shift ladder, the two multiply formulas and
the two masked-square formulas. All arithmetic is unsigned and modulo `2^width` (R174). -/

namespace Sys2Proof.Machine

/-! ## The ladder: XW8, XW16, XW32, XW64 -/

/-- `ALT(T, W)` (R151): bit `b` is 1 exactly when `floor(b / W)` is even. -/
def alt (T W : Nat) : BitVec T :=
  (List.range T).foldl (fun r b => if b / W % 2 = 0 then r ||| (1#T <<< b) else r) 0#T

/-- `STEP(T, W, x) = (x | (x << W)) & ALT(T, W)` (R152). -/
def ladderStep {T : Nat} (x : BitVec T) (W : Nat) : BitVec T :=
  (x ||| (x <<< W)) &&& alt T W

/-- The widths `N/2, N/4, …, 2, 1` of R153, for `N = 2^j`. -/
def ladderWidths : Nat → List Nat
  | 0 => []
  | j + 1 => 2 ^ j :: ladderWidths j

/-- `opt_N(v)` as a `T`-bit value, `N = 2^j`, `T = 2N` (R153). -/
def opt (j T : Nat) {N : Nat} (v : BitVec N) : BitVec T :=
  let x := (ladderWidths j).foldl ladderStep (v.setWidth T)
  x ||| (x <<< 1)

/-- `block_XW8` (R156). -/
def blockXw8 (_ : State) (v : List Byte) : List Byte := unpackBE 2 (opt 3 16 (packBE 8 v))

/-- `block_XW16` (R157). -/
def blockXw16 (_ : State) (v : List Byte) : List Byte := unpackBE 4 (opt 4 32 (packBE 16 v))

/-- `block_XW32` (R158). -/
def blockXw32 (_ : State) (v : List Byte) : List Byte := unpackBE 8 (opt 5 64 (packBE 32 v))

/-- `block_XW64` (R159): the ladder arithmetic is on 128-bit values. -/
def blockXw64 (_ : State) (v : List Byte) : List Byte := unpackBE 16 (opt 6 128 (packBE 64 v))

/-- XW8 (R156). -/
def execXw8 (nch : BitVec 16) (s : State) : Host.Outcome State Fault Refusal :=
  runExpand (.xw8 nch) blockXw8 s

/-- XW16 (R157). -/
def execXw16 (nch : BitVec 16) (s : State) : Host.Outcome State Fault Refusal :=
  runExpand (.xw16 nch) blockXw16 s

/-- XW32 (R158). -/
def execXw32 (nch : BitVec 16) (s : State) : Host.Outcome State Fault Refusal :=
  runExpand (.xw32 nch) blockXw32 s

/-- XW64 (R159). -/
def execXw64 (nch : BitVec 16) (s : State) : Host.Outcome State Fault Refusal :=
  runExpand (.xw64 nch) blockXw64 s

/-! ## The multiply formulas: XBEN, XBENK -/

/-- Formula `M1` (R162), on 64-bit values. -/
def mul1 (v : Byte) : BitVec 16 :=
  let x := v.setWidth 64
  let a := x * 0x0101010101010101#64
  let b := a &&& 0x8040201008040201#64
  let p := b * 0x0102040810204081#64
  let e := (p >>> 49) &&& 0x5555#64
  let o := (p >>> 48) &&& 0xAAAA#64
  (e ||| o).setWidth 16

/-- Formula `M2N` (R165), on 32-bit values, for one nibble. -/
def mul2Nibble (n : BitVec 4) : BitVec 8 :=
  let x := n.setWidth 32
  let a := x * 0x01010101#32
  let b := a &&& 0x08040201#32
  let p := b * 0x00204081#32
  let e := (p >>> 21) &&& 0x55#32
  let o := (p >>> 20) &&& 0xAA#32
  (e ||| o).setWidth 8

/-- Formula `M2` (R165): `M2N(v[7:4]) : M2N(v[3:0])`. -/
def mul2 (v : Byte) : BitVec 16 := mul2Nibble (highNibble v) ++ mul2Nibble (lowNibble v)

/-- `block_XBEN` (R163). -/
def blockXben (_ : State) (v : List Byte) : List Byte := unpackBE 2 (mul1 (packBE 8 v))

/-- `block_XBENK` (R166). -/
def blockXbenk (_ : State) (v : List Byte) : List Byte := unpackBE 2 (mul2 (packBE 8 v))

/-- XBEN (R163). -/
def execXben (nch : BitVec 16) (s : State) : Host.Outcome State Fault Refusal :=
  runExpand (.xben nch) blockXben s

/-- XBENK (R166). -/
def execXbenk (nch : BitVec 16) (s : State) : Host.Outcome State Fault Refusal :=
  runExpand (.xbenk nch) blockXbenk s

/-! ## The masked-square formulas: XLAU3, XLAU4 -/

/-- One term of R168: `(x & mask)^2 & result_mask`, on 16-bit values. -/
def maskedSquare (x mask result : BitVec 16) : BitVec 16 :=
  ((x &&& mask) * (x &&& mask)) &&& result

/-- Formula `L3` (R169): three groups at stride 3. -/
def square3 (v : Byte) : BitVec 16 :=
  let x := v.setWidth 16
  let s := maskedSquare x 0x49 0x1041 + maskedSquare x 0x92 0x4104 + maskedSquare x 0x24 0x0410
  3 * s

/-- Formula `L4` (R171): four groups at stride 4. -/
def square4 (v : Byte) : BitVec 16 :=
  let x := v.setWidth 16
  let s := maskedSquare x 0x11 0x0101 + maskedSquare x 0x22 0x0404 + maskedSquare x 0x44 0x1010
    + maskedSquare x 0x88 0x4040
  3 * s

/-- `block_XLAU3` (R170). -/
def blockXlau3 (_ : State) (v : List Byte) : List Byte := unpackBE 2 (square3 (packBE 8 v))

/-- `block_XLAU4` (R172). -/
def blockXlau4 (_ : State) (v : List Byte) : List Byte := unpackBE 2 (square4 (packBE 8 v))

/-- XLAU3 (R170). -/
def execXlau3 (nch : BitVec 16) (s : State) : Host.Outcome State Fault Refusal :=
  runExpand (.xlau3 nch) blockXlau3 s

/-- XLAU4 (R172). -/
def execXlau4 (nch : BitVec 16) (s : State) : Host.Outcome State Fault Refusal :=
  runExpand (.xlau4 nch) blockXlau4 s

end Sys2Proof.Machine
end

