-- ==== Sys2Proof/Machine/Dispatch.lean ====
section
/-! DEFINITION. The meaning of every command: one arm per constructor of `Instr`. Called on an idle state, a meaning is the
start step of its command (R124); called while the command runs, it is the next step of it (R127, R128). -/

namespace Sys2Proof.Machine

def exec (i : Instr) (s : State) : Host.Outcome State Fault Refusal :=
  match i with
  | .xscl nch => Sys2Proof.Machine.execXscl nch s
  | .xw8 nch => Sys2Proof.Machine.execXw8 nch s
  | .xw16 nch => Sys2Proof.Machine.execXw16 nch s
  | .xw32 nch => Sys2Proof.Machine.execXw32 nch s
  | .xw64 nch => Sys2Proof.Machine.execXw64 nch s
  | .xben nch => Sys2Proof.Machine.execXben nch s
  | .xbenk nch => Sys2Proof.Machine.execXbenk nch s
  | .xlau3 nch => Sys2Proof.Machine.execXlau3 nch s
  | .xlau4 nch => Sys2Proof.Machine.execXlau4 nch s
  | .xlut4 nch => Sys2Proof.Machine.execXlut4 nch s
  | .xlut8 nch => Sys2Proof.Machine.execXlut8 nch s
  | .xlut16 nch => Sys2Proof.Machine.execXlut16 nch s
  | .xvzip vls nch => Sys2Proof.Machine.execXvzip vls nch s
  | .xvtbl vls nch => Sys2Proof.Machine.execXvtbl vls nch s
  | .tbld4 => Sys2Proof.Machine.execTbld4 s
  | .tbld8 => Sys2Proof.Machine.execTbld8 s
  | .tbld16 => Sys2Proof.Machine.execTbld16 s

end Sys2Proof.Machine
end

