-- ==== Sys2Proof/Machine/Agents.lean ====
section
/-! DEFINITION. What each event does: the host's accesses to the register block (spec 10_state.md R22) and to the data memory
(R40), reset (R310), and the turns of BDX; with the host programs of 30_encoding.md R103 and R104 as lists of events. -/

namespace Sys2Proof.Machine

/-- A `WriteReg` that arrives while `BUSY = 1` (R22, R29): it sets `BUSYERR` and changes nothing else. -/
def writeWhileBusy (s : State) : State := { s with busyErr := true }

/-- A write of `CMD` when not busy (R22, R124): the top of the start step, then `F_ILLEGAL` with the word as `FINFO` where it
is no command (R98, R284), and otherwise the meaning of the command. -/
def startCommand (w : Word) (s : State) : Host.Outcome State Fault Refusal :=
  match decode w with
  | .error _ => .next (raiseFault .illegal w (beginCommand w s))
  | .ok i => exec i (beginCommand w s)

/-- `WriteReg(n, v)` (R22): the operand registers take the value, `CMD` starts a command, and the other four registers ignore
it. -/
def writeReg (r : Reg) (v : Word) (s : State) : Host.Outcome State Fault Refusal :=
  if s.busy then .next (writeWhileBusy s)
  else match r with
  | .src => .next { s with src := v }
  | .dst => .next { s with dst := v }
  | .len => .next { s with len := v }
  | .cmd => startCommand v s
  | .status => .next s
  | .finfo => .next s
  | .cap => .next s
  | .reserved7 => .next s

/-- What a read returned is the host's: it goes to the host's log and changes nothing of BDX (R22, R70). -/
def observe (o : Observation) (s : State) : State := { s with seen := s.seen ++ [o] }

/-- The host writes a byte of data memory. -/
def hostMemWrite (a : Word) (v : Byte) (s : State) : Host.Outcome State Fault Refusal :=
  if memOk s.params a.toNat then .next { s with mem := s.mem.write a.toNat v }
  else .refused (.hostAccessToUnbackedMemory a)

/-- The host reads a byte of data memory: the last value written to it (R70). -/
def hostMemRead (a : Word) (s : State) : Host.Outcome State Fault Refusal :=
  if memOk s.params a.toNat then .next (observe (.mem a (s.mem.read a.toNat)) s)
  else .refused (.hostAccessToUnbackedMemory a)

/-- A turn of BDX with the schedule's choice `pick`. While a command runs, the command in `CMD` takes its next step (R127,
R128; R23: the running command's rules read `CMD` directly); when none runs, BDX does nothing (R320). -/
def bdxTurn (pick : Nat) (s : State) : Host.Outcome State Fault Refusal :=
  if s.busy then
    match decode s.cmd with
    | .ok i => exec i { s with pick := pick }
    | .error _ => .fault .busyWithoutCommand
  else .next s

/-- A turn of BDX that no event of the schedule fixes: while a command runs, the choice is free (R266). -/
def freeTurn (s : State) : Host.Outcome State Fault Refusal :=
  if s.busy then bdxTurn (Config.freePick s.tick) { s with tick := s.tick + 1 } else .next s

/-- The host's `WAIT` at the head of the script (R103): while `BUSY = 1` it polls and BDX moves; when `BUSY = 0` the value
of `STATUS` is its result and the script goes on with `rest`. -/
def hostWait (rest : List Event) (s : State) : Host.Outcome State Fault Refusal :=
  if s.busy then freeTurn s
  else .next (observe (.reg .status (statusWord s)) { s with events := rest })

/-- One event of the script, `rest` being what is left of it. -/
def takeEvent (e : Event) (rest : List Event) (s : State) : Host.Outcome State Fault Refusal :=
  match e with
  | .writeReg r v => writeReg r v { s with events := rest }
  | .readReg r => .next (observe (.reg r (readReg s r)) { s with events := rest })
  | .memWrite a v => hostMemWrite a v { s with events := rest }
  | .memRead a => hostMemRead a { s with events := rest }
  | .wait => hostWait rest s
  | .reset => .next (applyReset { s with events := rest })
  | .bdx pick => bdxTurn pick { s with events := rest }

/-- `s` with the write of the command word `w` as the next thing that happens, and BDX idle so that it is accepted. -/
def placeCommand (w : Word) (s : State) : State :=
  { s with events := .writeReg .cmd w :: s.events, busy := false, pos := [] }

/-! ## Host programs (R103, R104) -/

/-- `MEM[a..] = bytes` (R103): the host fills memory from `a` on. DESIGN CHOICE, unsafe (log entry 23): bytes that run past
address `0xFFFFFFFF` go on at address 0; R103 gives such a statement no meaning. -/
def hostStore : Word → List Byte → List Event
  | _, [] => []
  | a, v :: rest => .memWrite a v :: hostStore (a + 1) rest

/-- `MEM[a..] => bytes` (R103): the host reads `n` bytes of memory from `a` on. DESIGN CHOICE, unsafe (log entry 23): a read
that runs past address `0xFFFFFFFF` goes on at address 0; R103 gives such a statement no meaning. -/
def hostLoad : Word → Nat → List Event
  | _, 0 => []
  | a, n + 1 => .memRead a :: hostLoad (a + 1) n

/-- The pseudo-instruction `EXPAND cmd, src, dst, len` (R104): the five statements it stands for. -/
def hostExpand (w src dst len : Word) : List Event :=
  [.writeReg .src src, .writeReg .dst dst, .writeReg .len len, .writeReg .cmd w, .wait]

end Sys2Proof.Machine
end

