-- ==== Sys2Proof/Machine/Step.lean ====
section
/-! DEFINITION. One step of the machine. BDX has no program counter (spec 10_state.md R24): a command is delivered by the
host's write of `CMD`, and what moves next is said by the script in `State.events`. -/

namespace Sys2Proof.Machine

/-- The next event of the script happens; when the script is empty, BDX goes on by itself (R133). -/
def step (s : State) : Host.Outcome State Fault Refusal :=
  match s.events with
  | [] => freeTurn s
  | e :: rest => takeEvent e rest s

/-- `s` with an opcode-table row's word as the command the very next step starts. -/
def State.withFetchWord (s : State) (nbits w : Nat) : State :=
  placeCommand (tableWord nbits w) s

end Sys2Proof.Machine
end

