-- ==== Sys2Proof/WellFormed.lean ====
section
/-! DEFINITION. Which terms of `Instr` are commands: the constraint column of spec 30_encoding.md R96. -/

namespace Sys2Proof

/-- R96's constraints: `NCH != 0` in the fourteen expand commands, and `VLS != 3` in the two vector commands. -/
def Instr.wellFormed : Instr → Bool
  | .xscl nch => nch != 0
  | .xw8 nch => nch != 0
  | .xw16 nch => nch != 0
  | .xw32 nch => nch != 0
  | .xw64 nch => nch != 0
  | .xben nch => nch != 0
  | .xbenk nch => nch != 0
  | .xlau3 nch => nch != 0
  | .xlau4 nch => nch != 0
  | .xlut4 nch => nch != 0
  | .xlut8 nch => nch != 0
  | .xlut16 nch => nch != 0
  | .xvzip vls nch => vls != 3 && nch != 0
  | .xvtbl vls nch => vls != 3 && nch != 0
  | .tbld4 => true
  | .tbld8 => true
  | .tbld16 => true

end Sys2Proof
end

