-- ==== Sys2Proof/Safety.lean ====
section
/-! DEFINITION. The terms claims are stated in: when a command is accepted (spec 40_command_and_oracle.md R124), the invariant
of the machine, the hazard rules the host must keep (70_reset_and_hazards.md R315 to R317), and what the steps of a command
do, said without its kernel's formula. -/

namespace Sys2Proof.Machine

/-! ## Accepted commands -/

/-- The fourteen expand commands (R3). -/
def isExpand : Instr → Bool
  | .xscl _ => true
  | .xw8 _ => true
  | .xw16 _ => true
  | .xw32 _ => true
  | .xw64 _ => true
  | .xben _ => true
  | .xbenk _ => true
  | .xlau3 _ => true
  | .xlau4 _ => true
  | .xlut4 _ => true
  | .xlut8 _ => true
  | .xlut16 _ => true
  | .xvzip _ _ => true
  | .xvtbl _ _ => true
  | .tbld4 => false
  | .tbld8 => false
  | .tbld16 => false

/-- Every check of the start step of an expand command passes (R285 to R288). -/
structure Accepts (i : Instr) (s : State) : Prop where
  vectorLength : available s.params i = true
  input : inputBad s = false
  output : outputBad s = false
  disjoint : rangesOverlap s = false
  lengths : ∀ k < chunkCount i, granularity i ∣ chunkLength i s k

/-- The illegal words, as R98 lists them. -/
def illegalWord (w : Word) : Prop :=
  (opField w).toNat = 0x00 ∨ (opField w).toNat = 0x0F ∨ 0x13 ≤ (opField w).toNat ∨
  rsvField w ≠ 0 ∨
  ((opField w).toNat ≠ 0x0D ∧ (opField w).toNat ≠ 0x0E ∧ vlsField w ≠ 0) ∨
  (((opField w).toNat = 0x0D ∨ (opField w).toNat = 0x0E) ∧ vlsField w = 3) ∨
  (1 ≤ (opField w).toNat ∧ (opField w).toNat ≤ 0x0E ∧ nchField w = 0) ∨
  (0x10 ≤ (opField w).toNat ∧ (opField w).toNat ≤ 0x12 ∧ nchField w ≠ 0)

/-- `in_bad` and `out_bad` in the words of R286: a run of `n` bytes at `a` is not empty, and passes `2^32` or has an address
where `MEM_OK` is false. -/
def badRange (p : Config.Params) (a n : Nat) : Prop :=
  0 < n ∧ (2 ^ 32 < a + n ∨ ∃ x, a ≤ x ∧ x < a + n ∧ memOk p x = false)

/-! ## The invariant -/

/-- What is so of the tables (R34, R191, R192): a built table holds the doubled key in every entry, and a table is built
only after every smaller one. -/
structure TablesSound (s : State) : Prop where
  four : s.tv4 = true → ∀ k : BitVec 4, readT4 s k = dbl 8 k
  eight : s.tv8 = true → ∀ k : BitVec 8, readT8 s k = dbl 16 k
  sixteen : s.tv16 = true → ∀ k : BitVec 16, readT16 s k = dbl 32 k
  eightHasFour : s.tv8 = true → s.tv4 = true
  sixteenHasEight : s.tv16 = true → s.tv8 = true

/-- The valid bit of a table. -/
def tableValid (s : State) : TableName → Bool
  | .t4 => s.tv4
  | .t8 => s.tv8
  | .t16 => s.tv16

/-- Offset `p` of a chunk is where a group begins, or the chunk's end (R126, R231): in a chunk of a vector command it lies
in the head, a whole number of vectors after it, or in the tail; otherwise it is a multiple of the granularity. -/
def atGroupBoundary (i : Instr) (sk len p : Nat) : Prop :=
  match vectorSelect i with
  | none => granularity i ∣ p
  | some vls =>
    p < headLen (laneCount vls) sk len ∨ laneCount vls ∣ p - headLen (laneCount vls) sk len ∨
      headLen (laneCount vls) sk len + bodyCount (laneCount vls) sk len * laneCount vls ≤ p

/-- What is so while the command `i` runs: `CMD` still holds it, its checks hold of the operands, it has one cursor per
chunk, each at a group boundary of its chunk, the table it names is built, and `VT` is loaded if it is XVTBL. -/
structure Running (i : Instr) (s : State) : Prop where
  command : decode s.cmd = .ok i
  accepted : isExpand i = true → Accepts i s
  cursors : s.pos.length = chunkCount i
  inChunk : ∀ k < chunkCount i, cursor s k ≤ chunkLength i s k
  boundary : ∀ k < chunkCount i, atGroupBoundary i (chunkSource i s k) (chunkLength i s k) (cursor s k)
  table : ∀ n, tableNamed i = some n → tableValid s n = true
  vtLoaded : ∀ vls nch, i = .xvtbl vls nch → ∀ j < laneCount vls, vtLane s j = dbl 8 (BitVec.ofNat 4 j)

/-- The invariant of the machine. -/
structure Inv (s : State) : Prop where
  /-- The memory is in its canonical form (R40). -/
  memory : s.mem.wf = true
  /-- `BUSY`, `DONE` and `FAULT` are never two at once (R28). -/
  busyNotDone : ¬(s.busy = true ∧ s.done = true)
  busyNotFault : ¬(s.busy = true ∧ s.fault = true)
  doneNotFault : ¬(s.done = true ∧ s.fault = true)
  /-- `FCODE` and `FINFO` report the last command's fault and are 0 where it did not fault (R27, R31). -/
  faultHasCode : s.fault = true ↔ s.fcode ≠ .none
  infoOnlyOfFault : s.fault = false → s.finfo = 0
  /-- `FEVER` remembers every fault (R29). -/
  faultRemembered : s.fault = true → s.fever = true
  /-- The tables (R34, R191). -/
  tables : TablesSound s
  /-- The cursors do not exist when BDX is idle (R25). -/
  idleHasNoCursor : s.busy = false → s.pos = []
  /-- While BDX is busy, an accepted command runs (R124). -/
  busyRuns : s.busy = true → ∃ i, Running i s

/-! ## The host's hazard rules -/

/-- The next event of the script keeps the rules of R315 to R317: while BDX is busy the host writes no register, no byte of
the input range and no byte of the output range. -/
def keepsHazardRules (s : State) : Event → Bool
  | .writeReg _ _ => !s.busy
  | .memWrite a _ => !s.busy ||
      (!rangesMeet a.toNat 1 s.src.toNat s.len.toNat && !rangesMeet a.toNat 1 s.dst.toNat (2 * s.len.toNat))
  | .readReg _ => true
  | .memRead _ => true
  | .wait => true
  | .reset => true
  | .bdx _ => true

/-- A safe state, readable from `STATUS` (92_eei_decisions.md D7): no command since reset was refused, and the host wrote no
register while BDX was busy. -/
def safe (s : State) : Bool := !s.fever && !s.busyErr

/-! ## What the steps of a command do -/

/-- The chunk whose turn it is (R266); `none` when no chunk has a group left. -/
def chunkToMove (i : Instr) (s : State) : Option Nat :=
  (chunksWithWork i s)[s.pick % (chunksWithWork i s).length]?

/-- The meaning of `i` at `s` answers a next state, in which the `2 * g` bytes of chunk `k`'s next output block are the
expansion of the `g` bytes of its next input group, `POS[k]` has advanced by `g`, and all else is as it was (R127). -/
def takesGroup (i : Instr) (s : State) (k g : Nat) : Prop :=
  ∃ t, exec i s = .next t ∧
    (∀ j < 2 * g, t.mem.read (nextOutput i s k + j) =
      (expand (s.mem.readBytes (nextInput i s k) g)).getD j 0) ∧
    (∀ a, a < nextOutput i s k ∨ nextOutput i s k + 2 * g ≤ a → t.mem.read a = s.mem.read a) ∧
    t = { s with mem := t.mem, pos := s.pos.set k (cursor s k + g) }

/-- Exactly one of `BUSY`, `DONE` and `FAULT` is 1 (R28). -/
def exactlyOneOutcome (s : State) : Bool :=
  (s.busy && !s.done && !s.fault) || (!s.busy && s.done && !s.fault) || (!s.busy && !s.done && s.fault)

/-- The meaning of `i` at `s` answers a next state in which the command is accepted (R124): `BUSY` is 1, there is one cursor
for each of the `n` chunks, each 0, and all else, all of memory with it, is as it was, but for the tables and `VT` as `t`
has them. -/
def startsRunning (i : Instr) (s : State) (n : Nat) (t : State) : Prop :=
  exec i s = .next t ∧
    t = { s with
      busy := true, pos := List.replicate n 0, vt := t.vt
      tv4 := t.tv4, tv8 := t.tv8, tv16 := t.tv16, t4 := t.t4, t8 := t.t8, t16 := t.t16 }

/-- `t` has built what `s` had not of the tables up to the one named: the valid bits of the named table and of every smaller
one are 1, every other valid bit and every table already built is as it was (R192, R194). -/
def tablesBuiltUpTo (n : Option TableName) (s t : State) : Prop :=
  t.tv4 = (s.tv4 || n.isSome) ∧
  t.tv8 = (s.tv8 || decide (n = some .t8 ∨ n = some .t16)) ∧
  t.tv16 = (s.tv16 || decide (n = some .t16)) ∧
  (s.tv4 = t.tv4 → t.t4 = s.t4) ∧ (s.tv8 = t.tv8 → t.t8 = s.t8) ∧ (s.tv16 = t.tv16 → t.t16 = s.t16) ∧
  (TablesSound s → TablesSound t)

/-- Started on an idle BDX where its checks pass, `i` is accepted with `n` chunks, has built the table `table` and the smaller
ones, and leaves `VT` alone (R124). -/
def accepted (i : Instr) (n : Nat) (table : Option TableName) : Prop :=
  ∀ s : State, s.busy = false → Accepts i s →
    ∃ t, startsRunning i s n t ∧ tablesBuiltUpTo table s t ∧ t.vt = s.vt

/-- The running command `i`, in any state of the invariant: where chunk `k` moves, it takes a group of `g s k` bytes. -/
def takesGroupsOf (i : Instr) (g : State → Nat → Nat) : Prop :=
  ∀ (s : State) (k : Nat), Inv s → s.busy = true → Running i s → chunkToMove i s = some k → takesGroup i s k (g s k)

/-- Where in its chunk a vector command is, and with it the size of its next group (R231): 1 in the head, `NB` in the body,
1 in the tail. -/
def vectorStepSize (i : Instr) (nb : Nat) (s : State) (k : Nat) : Nat :=
  if cursor s k < headLen nb (chunkSource i s k) (chunkLength i s k) then 1
  else if cursor s k < headLen nb (chunkSource i s k) (chunkLength i s k) +
      bodyCount nb (chunkSource i s k) (chunkLength i s k) * nb then nb
  else 1

/-- The start step of `i` at `s` ends in the fault `code` with `info` (R15, R290): a next state in which `FAULT`, `FEVER`,
`FCODE` and `FINFO` say so and all else, all of memory and the tables with it, is as it was. -/
def startFaults (i : Instr) (s : State) (code : FCode) (info : Word) : Prop :=
  exec i s = .next { s with fault := true, fever := true, fcode := code, finfo := info }

end Sys2Proof.Machine
end

