-- ==== Sys2Proof/Certificates/Slice0/Obligations.lean ====
section
/-! DEFINITION. The statements for the provers, from the numbered rules of the spec. -/

open Sys2Proof Sys2Proof.Machine

/-! ## Encoding (30_encoding.md) -/

/-- Words written out bit by bit from R91 and R96 (`NCH`, `RSV`, `VLS`, `OP`), one or more of every unit; the words in
hexadecimal are the examples of R102. -/
def Obligations.DecodeReadsWordsWrittenOut : Prop :=
  decode 0b0000000000000001_000000_00_00000001#32 = .ok (.xscl 1) ∧
  decode 0b1111111111111111_000000_00_00000101#32 = .ok (.xw64 0xFFFF) ∧
  decode 0b0000000000000010_000000_00_00000111#32 = .ok (.xbenk 2) ∧
  decode 0b1000000000000000_000000_00_00001000#32 = .ok (.xlau3 0x8000) ∧
  decode 0b0000000000000011_000000_00_00001100#32 = .ok (.xlut16 3) ∧
  decode 0b0000000000000001_000000_10_00001101#32 = .ok (.xvzip 2 1) ∧
  decode 0b0000000000000000_000000_00_00010001#32 = .ok .tbld8 ∧
  decode 0x00010004#32 = .ok (.xw32 1) ∧ decode 0x0004000B#32 = .ok (.xlut8 4) ∧
  decode 0x0008010E#32 = .ok (.xvtbl 1 8) ∧ decode 0x0001000D#32 = .ok (.xvzip 0 1) ∧
  decode 0x00000012#32 = .ok .tbld16

/-- Decode and encode agree on every well-formed command, at every value of `NCH` and `VLS`. -/
def Obligations.DecodeOfEncodeIsTheCommand : Prop :=
  ∀ i : Instr, i.wellFormed = true → decode (encode i) = .ok i

/-- The other direction: every word that decodes is the encoding of the well-formed command it decodes to, so no bit of a word
is ignored (R99). -/
def Obligations.EncodeOfDecodeIsTheWord : Prop :=
  ∀ (w : Word) (i : Instr), decode w = .ok i → encode i = w ∧ i.wellFormed = true

/-- R97: the tests of a word in the rule's order, and the command of its row where all pass. -/
def Obligations.DecodeTestsTheWordInOrder : Prop :=
  ∀ w : Word,
    let op := (w.extractLsb' 0 8).toNat
    let vls := w.extractLsb' 8 2
    let rsv := w.extractLsb' 10 6
    let nch := w.extractLsb' 16 16
    let assigned := (1 ≤ op ∧ op ≤ 0x0E) ∨ (0x10 ≤ op ∧ op ≤ 0x12)
    let vector := op = 0x0D ∨ op = 0x0E
    (¬assigned → decode w = .error .unassignedOpcode) ∧
    (assigned → rsv ≠ 0 → decode w = .error .reservedBits) ∧
    (assigned → rsv = 0 → vector → vls = 3 → decode w = .error .badVectorLength) ∧
    (assigned → rsv = 0 → ¬vector → vls ≠ 0 → decode w = .error .badVectorLength) ∧
    (assigned → rsv = 0 → (vector ∧ vls ≠ 3 ∨ ¬vector ∧ vls = 0) → op ≤ 0x0E → nch = 0 →
      decode w = .error .badChunkCount) ∧
    (assigned → rsv = 0 → (vector ∧ vls ≠ 3 ∨ ¬vector ∧ vls = 0) → 0x10 ≤ op → nch ≠ 0 →
      decode w = .error .badChunkCount) ∧
    (rsv = 0 → vls = 0 → nch ≠ 0 →
      (op = 0x01 → decode w = .ok (.xscl nch)) ∧ (op = 0x02 → decode w = .ok (.xw8 nch)) ∧
      (op = 0x03 → decode w = .ok (.xw16 nch)) ∧ (op = 0x04 → decode w = .ok (.xw32 nch)) ∧
      (op = 0x05 → decode w = .ok (.xw64 nch)) ∧ (op = 0x06 → decode w = .ok (.xben nch)) ∧
      (op = 0x07 → decode w = .ok (.xbenk nch)) ∧ (op = 0x08 → decode w = .ok (.xlau3 nch)) ∧
      (op = 0x09 → decode w = .ok (.xlau4 nch)) ∧ (op = 0x0A → decode w = .ok (.xlut4 nch)) ∧
      (op = 0x0B → decode w = .ok (.xlut8 nch)) ∧ (op = 0x0C → decode w = .ok (.xlut16 nch))) ∧
    (rsv = 0 → vls ≠ 3 → nch ≠ 0 →
      (op = 0x0D → decode w = .ok (.xvzip vls nch)) ∧ (op = 0x0E → decode w = .ok (.xvtbl vls nch))) ∧
    (rsv = 0 → vls = 0 → nch = 0 →
      (op = 0x10 → decode w = .ok .tbld4) ∧ (op = 0x11 → decode w = .ok .tbld8) ∧
      (op = 0x12 → decode w = .ok .tbld16))

/-- R98: the illegal words are exactly those it lists; a write of one to `CMD` on an idle BDX ends in `F_ILLEGAL` with the word
in `FINFO` and does nothing else; 0 is one of them. -/
def Obligations.IllegalWordsFaultAndDoNothingElse : Prop :=
  (∀ w : Word, illegalWord w ↔ ¬∃ i, decode w = .ok i) ∧
  illegalWord 0 ∧
  ∀ (w : Word) (s : State) (rest : List Event), illegalWord w → s.busy = false →
    s.events = .writeReg .cmd w :: rest →
    step s = .next { s with
      events := rest, cmd := w, done := false
      fault := true, fever := true, fcode := .illegal, finfo := w }

/-! ## Registers, status and reset (10_state.md, 70_reset_and_hazards.md) -/

/-- R22, row by row: what each `WriteReg` does when not busy and when busy, and what each `ReadReg` returns. -/
def Obligations.RegisterAccessesFollowTheTable : Prop :=
  (∀ (s : State) (r : Reg) (v : Word) (rest : List Event), s.events = .writeReg r v :: rest → s.busy = true →
    step s = .next { s with events := rest, busyErr := true }) ∧
  (∀ (s : State) (v : Word) (rest : List Event), s.busy = false →
    (s.events = .writeReg .src v :: rest → step s = .next { s with events := rest, src := v }) ∧
    (s.events = .writeReg .dst v :: rest → step s = .next { s with events := rest, dst := v }) ∧
    (s.events = .writeReg .len v :: rest → step s = .next { s with events := rest, len := v }) ∧
    (s.events = .writeReg .cmd v :: rest → ∃ t, startCommand v { s with events := rest } = .next t ∧
      step s = .next t ∧ t.cmd = v) ∧
    (s.events = .writeReg .status v :: rest → step s = .next { s with events := rest }) ∧
    (s.events = .writeReg .finfo v :: rest → step s = .next { s with events := rest }) ∧
    (s.events = .writeReg .cap v :: rest → step s = .next { s with events := rest }) ∧
    (s.events = .writeReg .reserved7 v :: rest → step s = .next { s with events := rest })) ∧
  (∀ (s : State) (r : Reg) (rest : List Event), s.events = .readReg r :: rest →
    step s = .next { s with events := rest, seen := s.seen ++ [.reg r (readReg s r)] }) ∧
  (∀ s : State, readReg s .src = s.src ∧ readReg s .dst = s.dst ∧ readReg s .len = s.len ∧ readReg s .cmd = s.cmd ∧
    readReg s .status = statusWord s ∧ readReg s .finfo = s.finfo ∧ readReg s .cap = capWord s.params ∧
    readReg s .reserved7 = 0)

/-- The places of the fields of `STATUS` (R27), the codes of `FCODE` (R30), and that no other bit is ever 1. -/
def Obligations.StatusFieldsStandWhereTheTableSays : Prop :=
  ∀ s : State,
    (statusWord s).getLsbD 0 = s.busy ∧ (statusWord s).getLsbD 1 = s.done ∧ (statusWord s).getLsbD 2 = s.fault ∧
    (statusWord s).getLsbD 3 = s.fever ∧ (statusWord s).getLsbD 4 = s.busyErr ∧
    (statusWord s).extractLsb' 5 3 = 0 ∧ (statusWord s).extractLsb' 8 4 = s.fcode.code ∧
    (statusWord s).extractLsb' 12 4 = 0 ∧
    (statusWord s).getLsbD 16 = s.tv4 ∧ (statusWord s).getLsbD 17 = s.tv8 ∧ (statusWord s).getLsbD 18 = s.tv16 ∧
    (statusWord s).extractLsb' 19 13 = 0 ∧
    FCode.none.code = 0 ∧ FCode.illegal.code = 1 ∧ FCode.unavail.code = 2 ∧ FCode.range.code = 3 ∧
    FCode.overlap.code = 4 ∧ FCode.length.code = 5 ∧ ∀ c : FCode, c.code.toNat ≤ 5

/-- `CAP` (R32): its bits, what they mean to the vector commands, and that no step of the machine changes it. -/
def Obligations.CapIsConstantAndSaysWhichVectorsExist : Prop :=
  (∀ p : Config.Params,
    (capWord p).getLsbD 0 = p.hasVl128 ∧ (capWord p).getLsbD 1 = p.hasVl256 ∧ (capWord p).getLsbD 2 = p.hasVl512 ∧
    (capWord p).extractLsb' 3 29 = 0) ∧
  (∀ (p : Config.Params) (vls : BitVec 2) (nch : BitVec 16),
    (available p (.xvzip vls nch) = (capWord p).getLsbD vls.toNat) ∧
    (available p (.xvtbl vls nch) = (capWord p).getLsbD vls.toNat)) ∧
  (∀ s t : State, step s = .next t → readReg t .cap = readReg s .cap)

/-- R310 and R311: the reset event, whenever it comes, and what it leaves alone; that the model's own script and log stay is the
model's choice (log entry 20). -/
def Obligations.ResetClearsEverythingButCapAndMemory : Prop :=
  ∀ (s : State) (rest : List Event), s.events = .reset :: rest →
    ∃ t, step s = .next t ∧
      t.src = 0 ∧ t.dst = 0 ∧ t.len = 0 ∧ t.cmd = 0 ∧ statusWord t = 0 ∧ t.finfo = 0 ∧
      t.busy = false ∧ t.done = false ∧ t.fault = false ∧ t.fever = false ∧ t.busyErr = false ∧ t.fcode = .none ∧
      t.tv4 = false ∧ t.tv8 = false ∧ t.tv16 = false ∧ t.pos = [] ∧
      readReg t .cap = readReg s .cap ∧ t.params = s.params ∧ (∀ a, t.mem.read a = s.mem.read a) ∧
      t.events = rest ∧ t.seen = s.seen

/-- The values of R43 in the state the machine starts from. That `CAP` shows all three vector lengths there is the model's
choice of the spec's default (log entry 4); that every byte of memory reads 0 is the model's choice (log entry 2). -/
def Obligations.StateAfterReset : Prop :=
  readReg State.reset .src = 0 ∧ readReg State.reset .dst = 0 ∧ readReg State.reset .len = 0 ∧
  readReg State.reset .cmd = 0 ∧ readReg State.reset .status = 0 ∧ readReg State.reset .finfo = 0 ∧
  readReg State.reset .reserved7 = 0 ∧ readReg State.reset .cap = 7 ∧
  State.reset.pos = [] ∧ State.reset.events = [] ∧ (∀ a, State.reset.mem.read a = 0)

/-- R29: `FEVER` and `BUSYERR`, once 1, stay 1 through every step but a reset; a command that is refused sets `FEVER`; a
register write while busy sets `BUSYERR` and has no other effect. -/
def Obligations.StickyBitsStayUntilReset : Prop :=
  (∀ s t : State, step s = .next t → s.events.head? ≠ some .reset →
    (s.fever = true → t.fever = true) ∧ (s.busyErr = true → t.busyErr = true)) ∧
  (∀ (s t : State) (w : Word), step s = .next t → s.events.head? = some (.writeReg .cmd w) → s.busy = false →
    t.fault = true → t.fever = true) ∧
  (∀ (s : State) (r : Reg) (v : Word) (rest : List Event), s.events = .writeReg r v :: rest → s.busy = true →
    step s = .next { s with events := rest, busyErr := true })

/-- R21 and R23: `SRC`, `DST` and `LEN` change only by the host's write of that register to an idle BDX, `CMD` only so too,
and all of them by reset; no step of a command changes any. -/
def Obligations.OperandRegistersChangeOnlyByHostWrites : Prop :=
  ∀ s t : State, step s = .next t → s.events.head? ≠ some .reset →
    (t.src ≠ s.src → s.busy = false ∧ s.events.head? = some (.writeReg .src t.src)) ∧
    (t.dst ≠ s.dst → s.busy = false ∧ s.events.head? = some (.writeReg .dst t.dst)) ∧
    (t.len ≠ s.len → s.busy = false ∧ s.events.head? = some (.writeReg .len t.len)) ∧
    (t.cmd ≠ s.cmd → s.busy = false ∧ s.events.head? = some (.writeReg .cmd t.cmd))

/-- R28: from the first command on, exactly one of `BUSY`, `DONE` and `FAULT` is 1: a write of `CMD` makes it so, and every
step but a reset keeps it so. -/
def Obligations.ExactlyOneOfBusyDoneFaultFromTheFirstCommandOn : Prop :=
  ∀ s t : State, Inv s → step s = .next t → s.events.head? ≠ some .reset →
    (exactlyOneOutcome s = true → exactlyOneOutcome t = true) ∧
    (∀ w, s.events.head? = some (.writeReg .cmd w) → exactlyOneOutcome t = true)

/-- A host that keeps the hazard rules (R317) never sets `BUSYERR`. -/
def Obligations.HostThatKeepsTheRulesSetsNoBusyErr : Prop :=
  ∀ s t : State, step s = .next t → s.busyErr = false → (∀ e ∈ s.events.head?, keepsHazardRules s e = true) →
    t.busyErr = false

/-- R320 and R24: with no command running, a turn of BDX changes nothing, and without an event nothing happens at all
(the model's choice, log entries 1 and 16). -/
def Obligations.IdleBdxDoesNothing : Prop :=
  ∀ s : State, s.busy = false →
    (s.events = [] → step s = .next s) ∧
    (∀ p rest, s.events = .bdx p :: rest → step s = .next { s with events := rest })

/-- The host's `WAIT` (R103): on an idle BDX the value of `STATUS` is its result; on a busy one it is polled again after the
step, which is BDX's, the script unchanged (the model's choice, log entry 16). -/
def Obligations.WaitPollsUntilBusyFalls : Prop :=
  ∀ (s : State) (rest : List Event), s.events = .wait :: rest →
    (s.busy = false → step s = .next { s with events := rest, seen := s.seen ++ [.reg .status (statusWord s)] }) ∧
    (s.busy = true → step s = freeTurn s ∧ ∀ t, step s = .next t → t.events = s.events ∧ t.seen = s.seen)

/-! ## The step -/

/-- A step runs the decoded command. A write of `CMD` to an idle BDX runs its start step on the state with `CMD` holding the
word and `DONE`, `FAULT`, `FCODE`, `FINFO` cleared (R124); a turn of BDX runs the next step of the command in `CMD`, the
chunk that moves chosen by the schedule's event, or by the free value where no event chooses (R266); the placed word of an
opcode-table row is run by the very next step. The script and the free choice are the model's (log entries 1, 3, 5 and 16). -/
def Obligations.StepRunsTheDecodedCommand : Prop :=
  (∀ (s : State) (w : Word) (i : Instr) (rest : List Event), s.busy = false → s.events = .writeReg .cmd w :: rest →
    decode w = .ok i →
    step s = exec i { s with events := rest, cmd := w, done := false, fault := false, fcode := .none, finfo := 0 }) ∧
  (∀ (s : State) (i : Instr) (p : Nat) (rest : List Event), s.busy = true → s.events = .bdx p :: rest →
    decode s.cmd = .ok i → step s = exec i { s with events := rest, pick := p }) ∧
  (∀ (s : State) (i : Instr), s.busy = true → (s.events = [] ∨ ∃ rest, s.events = .wait :: rest) →
    decode s.cmd = .ok i →
    step s = exec i { s with tick := s.tick + 1, pick := Config.freePick s.tick }) ∧
  (∀ (s : State) (i : Instr) (w : Nat), w < 2 ^ 32 → decode (BitVec.ofNat 32 w) = .ok i →
    step (s.withFetchWord 32 w) = exec i { s with
      busy := false, pos := [], cmd := BitVec.ofNat 32 w
      done := false, fault := false, fcode := .none, finfo := 0 })

/-- The invariant holds right after reset. -/
def Obligations.InvariantHoldsAtReset : Prop := Inv State.reset

/-- Every step keeps the invariant, whatever moves: the host, the schedule, a reset, or BDX. -/
def Obligations.EveryStepKeepsTheInvariant : Prop :=
  ∀ s t : State, Inv s → step s = .next t → Inv t

/-- An accepted command never faults later (R280), and no access of it leaves the address space or backed memory (R14, R137):
the model's own stops (log entry 9) cannot be met from a state of the invariant. -/
def Obligations.NoStepFaultsFromTheInvariant : Prop :=
  ∀ (s : State) (f : Fault), Inv s → step s ≠ .fault f

/-! ## The transform (40_command_and_oracle.md) -/

/-- R120. -/
def Obligations.SpreadPutsBitsAtEvenPositions : Prop :=
  ∀ (N : Nat) (v : BitVec N),
    (∀ b < N, (spread (2 * N) v).getLsbD (2 * b) = v.getLsbD b ∧ (spread (2 * N) v).getLsbD (2 * b + 1) = false) ∧
    (spread (2 * N) v).toNat = ((List.range N).map fun b => if v.getLsbD b then 2 ^ (2 * b) else 0).sum

/-- R121, its small cases included. -/
def Obligations.DblRepeatsEveryBit : Prop :=
  (∀ (N : Nat) (v : BitVec N),
    (∀ b < N, (dbl (2 * N) v).getLsbD (2 * b) = v.getLsbD b ∧ (dbl (2 * N) v).getLsbD (2 * b + 1) = v.getLsbD b) ∧
    dbl (2 * N) v = spread (2 * N) v ||| (spread (2 * N) v <<< 1)) ∧
  dbl 8 0b0000#4 = 0x00 ∧ dbl 8 0b0001#4 = 0x03 ∧ dbl 8 0b0010#4 = 0x0C ∧ dbl 8 0b1010#4 = 0xCC ∧
  dbl 8 0b1111#4 = 0xFF ∧ dbl 16 0xA0#8 = 0xCC00 ∧ dbl 16 0xFF#8 = 0xFFFF ∧ dbl 16 0x01#8 = 0x0003 ∧
  dbl 16 0x80#8 = 0xC000

/-- R123 (a) to (e). -/
def Obligations.LawsOfDblAndSpread : Prop :=
  (∀ (N : Nat) (v : BitVec N), (dbl (2 * N) v).toNat = 3 * (spread (2 * N) v).toNat) ∧
  (∀ (M N : Nat) (a : BitVec M) (b : BitVec N),
    (dbl (2 * (M + N)) (a ++ b)).toNat = (dbl (2 * M) a).toNat * 2 ^ (2 * N) + (dbl (2 * N) b).toNat ∧
    (spread (2 * (M + N)) (a ++ b)).toNat = (spread (2 * M) a).toNat * 2 ^ (2 * N) + (spread (2 * N) b).toNat) ∧
  (∀ bs : List Byte,
    unpackBE (2 * bs.length) (dbl (16 * bs.length) (packBE (8 * bs.length) bs)) =
      bs.flatMap fun v => [(dbl 16 v).extractLsb' 8 8, (dbl 16 v).extractLsb' 0 8]) ∧
  (∀ v : Byte, dbl 16 v = dbl 8 (highNibble v) ++ dbl 8 (lowNibble v)) ∧
  (∀ N : Nat, dbl (2 * N) (0#N) = 0#(2 * N) ∧ dbl (2 * N) (BitVec.allOnes N) = BitVec.allOnes (2 * N)) ∧
  (∀ (N : Nat) (a b : BitVec N),
    (dbl (2 * N) a = dbl (2 * N) b → a = b) ∧
    dbl (2 * N) (a ||| b) = dbl (2 * N) a ||| dbl (2 * N) b ∧
    dbl (2 * N) (a &&& b) = dbl (2 * N) a &&& dbl (2 * N) b)

/-- R122: `expand` byte by byte and bit by bit. -/
def Obligations.ExpandDoublesEveryBitInOrder : Prop :=
  expand [] = [] ∧
  ∀ bs : List Byte, (expand bs).length = 2 * bs.length ∧
    ∀ i < bs.length,
      (expand bs).getD (2 * i) 0 = (dbl 16 (bs.getD i 0)).extractLsb' 8 8 ∧
      (expand bs).getD (2 * i + 1) 0 = (dbl 16 (bs.getD i 0)).extractLsb' 0 8 ∧
      (∀ b, 4 ≤ b → b ≤ 7 →
        ((expand bs).getD (2 * i) 0).getLsbD (2 * (b - 4)) = (bs.getD i 0).getLsbD b ∧
        ((expand bs).getD (2 * i) 0).getLsbD (2 * (b - 4) + 1) = (bs.getD i 0).getLsbD b) ∧
      (∀ b, b ≤ 3 →
        ((expand bs).getD (2 * i + 1) 0).getLsbD (2 * b) = (bs.getD i 0).getLsbD b ∧
        ((expand bs).getD (2 * i + 1) 0).getLsbD (2 * b + 1) = (bs.getD i 0).getLsbD b)

/-! ## The kernels (41, 42, 43) -/

/-- R151's masks by their bits, and the values of its table. -/
def Obligations.AlternatingMasksAreThoseOfTheTable : Prop :=
  alt 16 4 = 0x0F0F ∧ alt 16 2 = 0x3333 ∧ alt 16 1 = 0x5555 ∧
  alt 32 8 = 0x00FF00FF ∧ alt 32 4 = 0x0F0F0F0F ∧ alt 32 2 = 0x33333333 ∧ alt 32 1 = 0x55555555 ∧
  alt 64 16 = 0x0000FFFF0000FFFF ∧ alt 64 8 = 0x00FF00FF00FF00FF ∧ alt 64 4 = 0x0F0F0F0F0F0F0F0F ∧
  alt 64 2 = 0x3333333333333333 ∧ alt 64 1 = 0x5555555555555555 ∧
  alt 128 32 = 0x00000000FFFFFFFF00000000FFFFFFFF ∧ alt 128 16 = 0x0000FFFF0000FFFF0000FFFF0000FFFF ∧
  alt 128 8 = 0x00FF00FF00FF00FF00FF00FF00FF00FF ∧ alt 128 4 = 0x0F0F0F0F0F0F0F0F0F0F0F0F0F0F0F0F ∧
  alt 128 2 = 0x33333333333333333333333333333333 ∧ alt 128 1 = 0x55555555555555555555555555555555 ∧
  ∀ T W b : Nat, b < T → ((alt T W).getLsbD b = true ↔ b / W % 2 = 0)

/-- R154: the ladder computes `dbl_N` at all four widths. -/
def Obligations.LadderComputesDbl : Prop :=
  (∀ v : BitVec 8, opt 3 16 v = dbl 16 v) ∧ (∀ v : BitVec 16, opt 4 32 v = dbl 32 v) ∧
  (∀ v : BitVec 32, opt 5 64 v = dbl 64 v) ∧ (∀ v : BitVec 64, opt 6 128 v = dbl 128 v)

/-- R164, R167 and R173: the multiply and masked-square formulas compute `dbl_8`, and `M2N` computes `dbl_4`. -/
def Obligations.MultiplyAndSquareFormulasComputeDbl : Prop :=
  (∀ v : Byte, mul1 v = dbl 16 v) ∧ (∀ n : BitVec 4, mul2Nibble n = dbl 8 n) ∧ (∀ v : Byte, mul2 v = dbl 16 v) ∧
  (∀ v : Byte, square3 v = dbl 16 v) ∧ (∀ v : Byte, square4 v = dbl 16 v)

/-- R131: every kernel's block formula gives the expansion of every group it can be given; the lookup kernels where the table
they name is built, XVTBL where `VT` is loaded too. -/
def Obligations.EveryKernelComputesTheExpansion : Prop :=
  ∀ s : State,
    (∀ b, blockXscl s [b] = expand [b]) ∧ (∀ b, blockXw8 s [b] = expand [b]) ∧
    (∀ v, v.length = 2 → blockXw16 s v = expand v) ∧ (∀ v, v.length = 4 → blockXw32 s v = expand v) ∧
    (∀ v, v.length = 8 → blockXw64 s v = expand v) ∧
    (∀ b, blockXben s [b] = expand [b]) ∧ (∀ b, blockXbenk s [b] = expand [b]) ∧
    (∀ b, blockXlau3 s [b] = expand [b]) ∧ (∀ b, blockXlau4 s [b] = expand [b]) ∧
    (∀ vls v, v.length = 1 ∨ v.length = laneCount vls → blockXvzip vls s v = expand v) ∧
    (TablesSound s →
      (s.tv4 = true → ∀ b, blockXlut4 s [b] = expand [b]) ∧ (s.tv8 = true → ∀ b, blockXlut8 s [b] = expand [b]) ∧
      (s.tv16 = true → ∀ v, v.length = 1 ∨ v.length = 2 → blockXlut16 s v = expand v) ∧
      (s.tv4 = true → ∀ vls, (∀ j < laneCount vls, vtLane s j = readT4 s (BitVec.ofNat 4 j)) →
        ∀ v, v.length = 1 ∨ v.length = laneCount vls → blockXvtbl vls s v = expand v))

/-- R230: the lane laws, with `T4` valid and `VT` loaded, whichever of the two texts of log entry 14 the hardware follows. -/
def Obligations.LaneLaws : Prop :=
  ∀ (s : State) (vls : BitVec 2) (v : List Byte), TablesSound s → s.tv4 = true → v.length = laneCount vls →
    (∀ j < laneCount vls, vtLane s j = readT4 s (BitVec.ofNat 4 j)) →
    (∀ j < laneCount vls,
      (vtbl16 s (vandi v 0x0F)).getD j 0 = readT4 s (lowNibble (v.getD j 0)) ∧
      readT4 s (lowNibble (v.getD j 0)) = dbl 8 (lowNibble (v.getD j 0)) ∧
      (vtbl16 s (vshri v 4)).getD j 0 = readT4 s (highNibble (v.getD j 0)) ∧
      readT4 s (highNibble (v.getD j 0)) = dbl 8 (highNibble (v.getD j 0))) ∧
    (∀ r, vbziplo r (laneCount vls) v v ++ vbziphi r (laneCount vls) v v = expand v) ∧
    vziplo (laneCount vls) (vtbl16 s (vshri v 4)) (vtbl16 s (vandi v 0x0F)) ++
      vziphi (laneCount vls) (vtbl16 s (vshri v 4)) (vtbl16 s (vandi v 0x0F)) = expand v

/-- R231: head, body and tail of a chunk. -/
def Obligations.HeadBodyAndTailCutTheChunk : Prop :=
  ∀ (vls : BitVec 2) (sk len : Nat),
    let nb := laneCount vls
    let h := headLen nb sk len
    let nv := bodyCount nb sk len
    h = min len ((-(sk : Int)) % (nb : Int)).toNat ∧ nv = (len - h) / nb ∧
    h + nv * nb ≤ len ∧ len - h - nv * nb < nb ∧
    (∀ p < h, ¬nb ∣ sk + p) ∧ (0 < nv → nb ∣ sk + h) ∧ (len < nb → nv = 0) ∧
    ∀ p, (p < h → vectorGroupSize nb sk len p = 1) ∧
      (h ≤ p → p < h + nv * nb → vectorGroupSize nb sk len p = nb) ∧
      (h + nv * nb ≤ p → vectorGroupSize nb sk len p = 1)

/-! ## The chunk partition (44_chunk_dispatch.md) -/

/-- R261 and R262: the chunks are contiguous, cover the input exactly and are disjoint; all before the last non-empty one have
length `c`, that one has length 1 to `c`, and the rest are empty; output sub-range `k` is `2 * len_k` bytes at
`DST + 2 * a_k`, where that of chunk `k - 1` ends. -/
def Obligations.ChunksPartitionTheRange : Prop :=
  ∀ L n : Nat, 0 < n →
    (L ≤ n * chunkSize L n ∧ n * chunkSize L n < L + n) ∧
    (∀ k, chunkStart L n k = min (k * chunkSize L n) L ∧
      chunkLen L n k = min ((k + 1) * chunkSize L n) L - chunkStart L n k) ∧
    chunkStart L n 0 = 0 ∧
    (∀ k, chunkStart L n (k + 1) = chunkStart L n k + chunkLen L n k) ∧
    ((List.range n).map (chunkLen L n)).sum = L ∧
    (∀ x < L, ∃! k, k < n ∧ chunkStart L n k ≤ x ∧ x < chunkStart L n k + chunkLen L n k) ∧
    (∀ y < 2 * L, ∃! k, k < n ∧ 2 * chunkStart L n k ≤ y ∧ y < 2 * chunkStart L n k + 2 * chunkLen L n k) ∧
    (∀ x k, chunkStart L n k ≤ x → x < chunkStart L n k + chunkLen L n k →
      2 * chunkStart L n k ≤ 2 * x ∧ 2 * x + 1 < 2 * chunkStart L n k + 2 * chunkLen L n k) ∧
    (∀ k, chunkLen L n k ≤ chunkSize L n ∧ (0 < chunkLen L n (k + 1) → chunkLen L n k = chunkSize L n)) ∧
    (∀ (i : Instr) (s : State) (k : Nat), chunkCount i = n → s.len.toNat = L →
      chunkSource i s k = s.src.toNat + chunkStart L n k ∧ chunkTarget i s k = s.dst.toNat + 2 * chunkStart L n k ∧
      chunkTarget i s (k + 1) = chunkTarget i s k + 2 * chunkLength i s k)

/-- R271: the worked partitions. -/
def Obligations.WorkedPartitions : Prop :=
  let parts := fun L n => (List.range n).map fun k => (chunkStart L n k, chunkLen L n k)
  ([(10, 4), (10, 3), (10, 8), (6, 2), (1024, 8), (16, 3), (16, 4), (3, 5), (0, 4)] : List (Nat × Nat)).map
    (fun p => chunkSize p.1 p.2) = [3, 4, 2, 3, 128, 6, 4, 1, 0] ∧
  parts 10 4 = [(0, 3), (3, 3), (6, 3), (9, 1)] ∧
  parts 10 3 = [(0, 4), (4, 4), (8, 2)] ∧
  parts 10 8 = [(0, 2), (2, 2), (4, 2), (6, 2), (8, 2), (10, 0), (10, 0), (10, 0)] ∧
  parts 6 2 = [(0, 3), (3, 3)] ∧
  parts 1024 8 = [(0, 128), (128, 128), (256, 128), (384, 128), (512, 128), (640, 128), (768, 128), (896, 128)] ∧
  parts 16 3 = [(0, 6), (6, 6), (12, 4)] ∧ firstBadChunk 4 16 3 = some 0 ∧ firstBadChunk 2 16 3 = none ∧
  parts 16 4 = [(0, 4), (4, 4), (8, 4), (12, 4)] ∧ firstBadChunk 4 16 4 = none ∧ firstBadChunk 8 16 4 = some 0 ∧
  parts 3 5 = [(0, 1), (1, 1), (2, 1), (3, 0), (3, 0)] ∧
  parts 0 4 = [(0, 0), (0, 0), (0, 0), (0, 0)]

/-- R270: more chunks than bytes. -/
def Obligations.ChunksBeyondTheDataAreEmpty : Prop :=
  (∀ L n : Nat, 0 < L → L < n → chunkSize L n = 1 ∧ (∀ k < L, chunkLen L n k = 1) ∧ ∀ k, L ≤ k → chunkLen L n k = 0) ∧
  (∀ n : Nat, 0 < n → chunkSize 0 n = 0 ∧ ∀ k, chunkLen 0 n k = 0) ∧
  (∀ (i : Instr) (s : State) (k : Nat), chunkLength i s k = 0 →
    granularity i ∣ chunkLength i s k ∧ k ∉ chunksWithWork i s)

/-! ## The start step: acceptance (40_command_and_oracle.md R124) -/

/-- XSCL, XW8, XW16, XW32, XW64, XBEN, XBENK, XLAU3, XLAU4 start where their checks pass, with `NCH` chunks; they name no
table. -/
def Obligations.ScalarAndWordParallelCommandsStart : Prop :=
  ∀ nch : BitVec 16,
    accepted (.xscl nch) nch.toNat none ∧ accepted (.xw8 nch) nch.toNat none ∧ accepted (.xw16 nch) nch.toNat none ∧
    accepted (.xw32 nch) nch.toNat none ∧ accepted (.xw64 nch) nch.toNat none ∧ accepted (.xben nch) nch.toNat none ∧
    accepted (.xbenk nch) nch.toNat none ∧ accepted (.xlau3 nch) nch.toNat none ∧
    accepted (.xlau4 nch) nch.toNat none

/-- XLUT4, XLUT8 and XLUT16 start where their checks pass, with the table they name built, and every smaller one (R194). -/
def Obligations.LookupCommandsStartWithTheirTablesBuilt : Prop :=
  ∀ nch : BitVec 16,
    accepted (.xlut4 nch) nch.toNat (some .t4) ∧ accepted (.xlut8 nch) nch.toNat (some .t8) ∧
    accepted (.xlut16 nch) nch.toNat (some .t16)

/-- XVZIP and XVTBL start where their checks pass; XVZIP names no table, XVTBL names `T4` and loads `VT` with it, repeated
(R236). -/
def Obligations.VectorCommandsStart : Prop :=
  ∀ (vls : BitVec 2) (nch : BitVec 16),
    accepted (.xvzip vls nch) nch.toNat none ∧
    ∀ s : State, s.busy = false → Accepts (.xvtbl vls nch) s →
      ∃ t, startsRunning (.xvtbl vls nch) s nch.toNat t ∧ tablesBuiltUpTo (some .t4) s t ∧
        t.vt.length = laneCount vls ∧ ∀ j < laneCount vls, vtLane t j = readT4 t (BitVec.ofNat 4 (j % 16))

/-- TBLD4, TBLD8 and TBLD16 (R196 to R198): on an idle BDX the tables named are built, `BUSY` is 1, and nothing else changes:
no operand is read, no check applies and no memory is touched; the next step completes the command. -/
def Obligations.TableBuildCommandsBuildAndComplete : Prop :=
  ∀ s : State,
    (s.busy = false →
      (∃ t, exec .tbld4 s = .next t ∧ tablesBuiltUpTo (some .t4) s t ∧
        t = { s with busy := true, tv4 := true, t4 := t.t4 }) ∧
      (∃ t, exec .tbld8 s = .next t ∧ tablesBuiltUpTo (some .t8) s t ∧
        t = { s with busy := true, tv4 := true, tv8 := true, t4 := t.t4, t8 := t.t8 }) ∧
      (∃ t, exec .tbld16 s = .next t ∧ tablesBuiltUpTo (some .t16) s t ∧
        t = { s with
          busy := true, tv4 := true, tv8 := true, tv16 := true, t4 := t.t4, t8 := t.t8, t16 := t.t16 })) ∧
    (s.busy = true →
      exec .tbld4 s = .next { s with busy := false, done := true, pos := [] } ∧
      exec .tbld8 s = .next { s with busy := false, done := true, pos := [] } ∧
      exec .tbld16 s = .next { s with busy := false, done := true, pos := [] })

/-- R129: an expand command with `LEN = 0` is accepted whatever `SRC` and `DST` are, builds the tables it names, touches no
memory, and completes in the step after its start step. -/
def Obligations.ZeroLengthCompletesWithoutAnAccess : Prop :=
  ∀ (i : Instr) (s : State), isExpand i = true → s.busy = false → s.len = 0 → available s.params i = true →
    ∃ t, startsRunning i s (chunkCount i) t ∧ tablesBuiltUpTo (tableNamed i) s t ∧ t.mem = s.mem ∧
      exec i t = .next { t with busy := false, done := true, pos := [] }

/-! ## The start step: faults (60_exceptions.md) -/

/-- R285: a vector command at a length the hardware lacks faults with `F_UNAVAIL` and the word in `FINFO`, whatever the
operands are. -/
def Obligations.MissingVectorLengthFaults : Prop :=
  ∀ (s : State) (vls : BitVec 2) (nch : BitVec 16), s.busy = false → (capWord s.params).getLsbD vls.toNat = false →
    startFaults (.xvzip vls nch) s .unavail s.cmd ∧ startFaults (.xvtbl vls nch) s .unavail s.cmd ∧
    ∀ (w : Word) (rest : List Event), s.events = .writeReg .cmd w :: rest →
      decode w = .ok (.xvzip vls nch) ∨ decode w = .ok (.xvtbl vls nch) →
      step s = .next { s with
        events := rest, cmd := w, done := false
        fault := true, fever := true, fcode := .unavail, finfo := w }

/-- R286: a bad range faults with `F_RANGE`, the input range reported first; an empty range is never bad; and no command with
`LEN >= 2^31` is accepted. -/
def Obligations.BadRangeFaults : Prop :=
  (∀ (i : Instr) (s : State), isExpand i = true → s.busy = false → available s.params i = true →
    (badRange s.params s.src.toNat s.len.toNat → startFaults i s .range 0) ∧
    (¬badRange s.params s.src.toNat s.len.toNat → badRange s.params s.dst.toNat (2 * s.len.toNat) →
      startFaults i s .range 1)) ∧
  (∀ (i : Instr) (s : State), isExpand i = true → Accepts i s →
    ¬badRange s.params s.src.toNat s.len.toNat ∧ ¬badRange s.params s.dst.toNat (2 * s.len.toNat)) ∧
  (∀ (p : Config.Params) (a : Nat), ¬badRange p a 0) ∧
  (∀ (i : Instr) (s : State), Accepts i s → s.len.toNat < 2 ^ 31)

/-- R287: ranges with a byte in common fault with `F_OVERLAP`; the test for it; and with `LEN = 0` it is never raised. -/
def Obligations.OverlapFaults : Prop :=
  (∀ s : State, rangesOverlap s = true ↔
    0 < s.len.toNat ∧ s.src.toNat < s.dst.toNat + 2 * s.len.toNat ∧ s.dst.toNat < s.src.toNat + s.len.toNat) ∧
  (∀ (i : Instr) (s : State) (info : Word), isExpand i = true → s.busy = false → s.len = 0 →
    ¬startFaults i s .overlap info) ∧
  (∀ (i : Instr) (s : State), isExpand i = true → s.busy = false → available s.params i = true →
    ¬badRange s.params s.src.toNat s.len.toNat → ¬badRange s.params s.dst.toNat (2 * s.len.toNat) →
    (∃ a, s.src.toNat ≤ a ∧ a < s.src.toNat + s.len.toNat ∧ s.dst.toNat ≤ a ∧ a < s.dst.toNat + 2 * s.len.toNat) →
    startFaults i s .overlap 0) ∧
  (∀ (i : Instr) (s : State), Accepts i s →
    ¬∃ a, s.src.toNat ≤ a ∧ a < s.src.toNat + s.len.toNat ∧ s.dst.toNat ≤ a ∧ a < s.dst.toNat + 2 * s.len.toNat)

/-- R288: a chunk whose length is no multiple of the granularity faults with `F_LENGTH` and the lowest such chunk's index; XW16,
XW32 and XW64 have granularity 2, 4 and 8 and no other command can fault so; and the index in closed form. -/
def Obligations.BadChunkLengthFaults : Prop :=
  (∀ (i : Instr) (s : State) (k : Nat), isExpand i = true → s.busy = false → available s.params i = true →
    inputBad s = false → outputBad s = false → rangesOverlap s = false →
    k < chunkCount i → ¬granularity i ∣ chunkLength i s k → (∀ j < k, granularity i ∣ chunkLength i s j) →
    startFaults i s .length (BitVec.ofNat 32 k)) ∧
  (∀ (i : Instr), granularity i ≠ 1 ↔ ∃ nch, i = .xw16 nch ∨ i = .xw32 nch ∨ i = .xw64 nch) ∧
  (∀ nch, granularity (.xw16 nch) = 2 ∧ granularity (.xw32 nch) = 4 ∧ granularity (.xw64 nch) = 8) ∧
  (∀ g L n : Nat, firstBadChunk g L n = none ↔ ∀ k < n, g ∣ chunkLen L n k) ∧
  (∀ g L n : Nat, 0 < g → 0 < n →
    firstBadChunk g L n =
      if chunkSize L n % g ≠ 0 then some 0 else if L % g ≠ 0 then some (L / chunkSize L n) else none)

/-- R291: of several faults of one command the first in the fixed order is reported. The rule's examples, for every state in
which the faults coincide, and the order itself. -/
def Obligations.OneFaultIsReportedInTheFixedOrder : Prop :=
  (∀ (i : Instr) (s : State), isExpand i = true → s.busy = false →
    (available s.params i = false → startFaults i s .unavail s.cmd) ∧
    (available s.params i = true → inputBad s = true → startFaults i s .range 0) ∧
    (available s.params i = true → inputBad s = false → outputBad s = true → startFaults i s .range 1) ∧
    (available s.params i = true → inputBad s = false → outputBad s = false → rangesOverlap s = true →
      startFaults i s .overlap 0) ∧
    ∀ k, available s.params i = true → inputBad s = false → outputBad s = false → rangesOverlap s = false →
      firstBadChunk (granularity i) s.len.toNat (chunkCount i) = some k →
      startFaults i s .length (BitVec.ofNat 32 k)) ∧
  (∀ (s : State) (nch : BitVec 16), s.busy = false → s.len = 6 → inputBad s = false → outputBad s = false →
    rangesOverlap s = true → startFaults (.xw32 nch) s .overlap 0) ∧
  (∀ (s : State) (nch : BitVec 16), s.busy = false → s.params.hasVl512 = false →
    2 ^ 32 < s.src.toNat + s.len.toNat → startFaults (.xvzip 2 nch) s .unavail s.cmd) ∧
  (∀ (s : State) (w : Word) (rest : List Event), s.busy = false → s.events = .writeReg .cmd w :: rest →
    opField w = 0x0D → nchField w = 0 →
    ∃ t, step s = .next t ∧ t.fcode = .illegal ∧ t.finfo = w)

/-- R292: a fault leaves nothing that changes what the next command does: after any fault, a write of `CMD` does what it would
have done without, but for the sticky `FEVER`. -/
def Obligations.FaultLeavesNoTraceButFever : Prop :=
  ∀ (s t : State) (w : Word) (rest : List Event) (code : FCode) (info : Word),
    s.busy = false → s.events = .writeReg .cmd w :: rest → step s = .next t →
    step (raiseFault code info s) = .next { t with fever := true }

/-! ## The steps of a running command (40_command_and_oracle.md R127) -/

/-- XSCL takes one byte a step and writes its expansion, and nothing else (R132). -/
def Obligations.XsclStepWritesTheExpansion : Prop :=
  ∀ nch : BitVec 16, takesGroupsOf (.xscl nch) fun _ _ => 1

/-- XW8, XW16, XW32 and XW64 take 1, 2, 4 and 8 bytes a step (R156 to R159). -/
def Obligations.LadderStepsWriteTheExpansion : Prop :=
  ∀ nch : BitVec 16,
    takesGroupsOf (.xw8 nch) (fun _ _ => 1) ∧ takesGroupsOf (.xw16 nch) (fun _ _ => 2) ∧
    takesGroupsOf (.xw32 nch) (fun _ _ => 4) ∧ takesGroupsOf (.xw64 nch) (fun _ _ => 8)

/-- XBEN, XBENK, XLAU3 and XLAU4 take one byte a step (R163, R166, R170, R172). -/
def Obligations.MultiplyAndSquareStepsWriteTheExpansion : Prop :=
  ∀ nch : BitVec 16,
    takesGroupsOf (.xben nch) (fun _ _ => 1) ∧ takesGroupsOf (.xbenk nch) (fun _ _ => 1) ∧
    takesGroupsOf (.xlau3 nch) (fun _ _ => 1) ∧ takesGroupsOf (.xlau4 nch) (fun _ _ => 1)

/-- XLUT4 and XLUT8 take one byte a step, XLUT16 two, and one where a single byte of the chunk is left (R199 to R201). -/
def Obligations.LookupStepsWriteTheExpansion : Prop :=
  ∀ nch : BitVec 16,
    takesGroupsOf (.xlut4 nch) (fun _ _ => 1) ∧ takesGroupsOf (.xlut8 nch) (fun _ _ => 1) ∧
    takesGroupsOf (.xlut16 nch) (fun s k =>
      if 2 ≤ chunkLength (.xlut16 nch) s k - cursor s k then 2 else 1)

/-- XVZIP takes one byte a step in the head and the tail of a chunk and a vector in its body (R232 to R235). -/
def Obligations.XvzipStepsWriteTheExpansion : Prop :=
  ∀ (vls : BitVec 2) (nch : BitVec 16),
    takesGroupsOf (.xvzip vls nch) (vectorStepSize (.xvzip vls nch) (laneCount vls))

/-- XVTBL takes one byte a step in the head and the tail of a chunk and a vector in its body (R232, R233, R237, R238). -/
def Obligations.XvtblStepsWriteTheExpansion : Prop :=
  ∀ (vls : BitVec 2) (nch : BitVec 16),
    takesGroupsOf (.xvtbl vls nch) (vectorStepSize (.xvtbl vls nch) (laneCount vls))

/-- R128: a running command completes in one step exactly where no chunk has a group left: `BUSY` falls, `DONE` rises, the
cursors go, and nothing else changes; where a chunk has a group left no step completes it. -/
def Obligations.CompletionComesExactlyWhenNoGroupIsLeft : Prop :=
  ∀ (i : Instr) (s : State), s.busy = true →
    ((∀ k < chunkCount i, chunkLength i s k ≤ cursor s k) →
      exec i s = .next { s with busy := false, done := true, pos := [] }) ∧
    (∀ k t, isExpand i = true → k < chunkCount i → cursor s k < chunkLength i s k → exec i s = .next t →
      t.busy = true ∧ t.done = s.done)

/-- R266: whichever chunk has a group left, some turn of the schedule (log entry 3) gives it the next step; no order is
fixed. -/
def Obligations.AnyChunkWithWorkMayMoveNext : Prop :=
  ∀ (i : Instr) (s : State) (k : Nat) (rest : List Event), isExpand i = true → Inv s → s.busy = true → Running i s →
    k < chunkCount i → cursor s k < chunkLength i s k →
    0 < nextGroupSize i s k ∧
    ∃ p t, step { s with events := .bdx p :: rest } = .next t ∧ t.busy = true ∧
      t.pos = s.pos.set k (cursor s k + nextGroupSize i s k)

/-- R66 and R67: apart from the host's own writes, a byte of memory changes only while BDX is busy and only inside the output
range, which shares no byte with the input range. -/
def Obligations.MemoryChangesOnlyInTheOutputRange : Prop :=
  ∀ (s t : State) (a : Nat), Inv s → step s = .next t → (∀ b v, s.events.head? ≠ some (.memWrite b v)) →
    t.mem.read a ≠ s.mem.read a →
    s.busy = true ∧ s.dst.toNat ≤ a ∧ a < s.dst.toNat + 2 * s.len.toNat ∧
      ¬(s.src.toNat ≤ a ∧ a < s.src.toNat + s.len.toNat)

/-- R67: an output byte is written once: the output of the input bytes a chunk has consumed is not written again by any step
of BDX. -/
def Obligations.WrittenOutputIsNotWrittenAgain : Prop :=
  ∀ (i : Instr) (s t : State) (k q : Nat), Inv s → s.busy = true → Running i s → step s = .next t →
    (∀ b v, s.events.head? ≠ some (.memWrite b v)) → k < chunkCount i → q < cursor s k →
    t.mem.read (chunkTarget i s k + 2 * q) = s.mem.read (chunkTarget i s k + 2 * q) ∧
    t.mem.read (chunkTarget i s k + 2 * q + 1) = s.mem.read (chunkTarget i s k + 2 * q + 1)

/-- R34 and R195: a table, once built, is never changed and stays built until reset. -/
def Obligations.BuiltTablesNeverChangeUntilReset : Prop :=
  ∀ s t : State, step s = .next t → s.events.head? ≠ some .reset →
    (s.tv4 = true → t.tv4 = true ∧ t.t4 = s.t4) ∧ (s.tv8 = true → t.tv8 = true ∧ t.t8 = s.t8) ∧
    (s.tv16 = true → t.tv16 = true ∧ t.t16 = s.t16)

/-- The host's own accesses (R70): a byte the host writes to backed memory is what its next read of it returns, and no other
byte changes. While BDX is busy and the byte lies in the command's input or output range, R78, R315 and R316 leave this
open, and it is the model's choice (log entries 11 and 12). -/
def Obligations.HostReadReturnsTheLastWrite : Prop :=
  ∀ (s : State) (a : Word) (v : Byte) (rest : List Event), Inv s → memOk s.params a.toNat = true →
    s.events = .memWrite a v :: .memRead a :: rest →
    ∃ t u, step s = .next t ∧ step t = .next u ∧ u.seen = s.seen ++ [.mem a v] ∧ u.events = rest ∧
      (∀ b, b ≠ a.toNat → u.mem.read b = s.mem.read b) ∧
      u = { s with mem := u.mem, events := rest, seen := u.seen }

/-! ## Whole commands (40_command_and_oracle.md R130, R133, R134) -/

/-- R130 and R133: an accepted expand command, with every schedule of its chunks, has completed after at most `LEN` chunk steps
and the completion: the output range holds the expansion of the input range, all other memory and the operand registers
are as they were, and `STATUS` and `FINFO` say `DONE`. That BDX goes on by itself once the schedule is used up is log entry
16. -/
def Obligations.CommandWritesTheExpansionInEveryOrder : Prop :=
  ∀ (i : Instr) (w : Word) (s : State) (picks : List Nat), isExpand i = true → decode w = .ok i → Inv s →
    s.busy = false → Accepts i s → s.events = .writeReg .cmd w :: picks.map .bdx →
    ∃ t : State, Host.Core.run Sys2Proof.core (picks.length + s.len.toNat + 2) s = .next t ∧
      (∀ j < 2 * s.len.toNat, t.mem.read (s.dst.toNat + j) =
        (expand (s.mem.readBytes s.src.toNat s.len.toNat)).getD j 0) ∧
      (∀ a, a < s.dst.toNat ∨ s.dst.toNat + 2 * s.len.toNat ≤ a → t.mem.read a = s.mem.read a) ∧
      t.src = s.src ∧ t.dst = s.dst ∧ t.len = s.len ∧ t.cmd = w ∧
      t.busy = false ∧ t.done = true ∧ t.fault = false ∧ t.fcode = .none ∧ t.finfo = 0 ∧
      t.fever = s.fever ∧ t.busyErr = s.busyErr ∧ tablesBuiltUpTo (tableNamed i) s t ∧ t.events = []

/-- R269 and R134: the memory a completed expand command leaves does not depend on the kernel, on `VLS`, on `NCH` or on the
order of the steps. That BDX goes on by itself once a schedule is used up is log entry 16. -/
def Obligations.ResultDoesNotDependOnKernelChunksOrOrder : Prop :=
  ∀ (i j : Instr) (w v : Word) (s t u : State) (picks picks' : List Nat), isExpand i = true → isExpand j = true →
    decode w = .ok i → decode v = .ok j → Inv s → s.busy = false → Accepts i s → Accepts j s →
    Host.Core.run Sys2Proof.core (picks.length + s.len.toNat + 2)
      { s with events := .writeReg .cmd w :: picks.map .bdx } = .next t →
    Host.Core.run Sys2Proof.core (picks'.length + s.len.toNat + 2)
      { s with events := .writeReg .cmd v :: picks'.map .bdx } = .next u →
    t.mem = u.mem
end

