-- ==== Sys2Proof/Laws/State.lean ====
section
/-! SUPPORT. What each named update of the state does to each field: one lemma per field per update, so that no proof unfolds
a record update. -/

namespace Sys2Proof.Machine

/-! ## `beginCommand` -/

@[simp] theorem beginCommand_src (w : Word) (s : State) : (beginCommand w s).src = s.src := rfl
@[simp] theorem beginCommand_dst (w : Word) (s : State) : (beginCommand w s).dst = s.dst := rfl
@[simp] theorem beginCommand_len (w : Word) (s : State) : (beginCommand w s).len = s.len := rfl
@[simp] theorem beginCommand_cmd (w : Word) (s : State) : (beginCommand w s).cmd = w := rfl
@[simp] theorem beginCommand_busy (w : Word) (s : State) : (beginCommand w s).busy = s.busy := rfl
@[simp] theorem beginCommand_done (w : Word) (s : State) : (beginCommand w s).done = false := rfl
@[simp] theorem beginCommand_fault (w : Word) (s : State) : (beginCommand w s).fault = false := rfl
@[simp] theorem beginCommand_fever (w : Word) (s : State) : (beginCommand w s).fever = s.fever := rfl
@[simp] theorem beginCommand_busyErr (w : Word) (s : State) : (beginCommand w s).busyErr = s.busyErr := rfl
@[simp] theorem beginCommand_fcode (w : Word) (s : State) : (beginCommand w s).fcode = .none := rfl
@[simp] theorem beginCommand_finfo (w : Word) (s : State) : (beginCommand w s).finfo = 0 := rfl
@[simp] theorem beginCommand_tv4 (w : Word) (s : State) : (beginCommand w s).tv4 = s.tv4 := rfl
@[simp] theorem beginCommand_tv8 (w : Word) (s : State) : (beginCommand w s).tv8 = s.tv8 := rfl
@[simp] theorem beginCommand_tv16 (w : Word) (s : State) : (beginCommand w s).tv16 = s.tv16 := rfl
@[simp] theorem beginCommand_t4 (w : Word) (s : State) : (beginCommand w s).t4 = s.t4 := rfl
@[simp] theorem beginCommand_t8 (w : Word) (s : State) : (beginCommand w s).t8 = s.t8 := rfl
@[simp] theorem beginCommand_t16 (w : Word) (s : State) : (beginCommand w s).t16 = s.t16 := rfl
@[simp] theorem beginCommand_pos (w : Word) (s : State) : (beginCommand w s).pos = s.pos := rfl
@[simp] theorem beginCommand_vt (w : Word) (s : State) : (beginCommand w s).vt = s.vt := rfl
@[simp] theorem beginCommand_mem (w : Word) (s : State) : (beginCommand w s).mem = s.mem := rfl
@[simp] theorem beginCommand_params (w : Word) (s : State) : (beginCommand w s).params = s.params := rfl
@[simp] theorem beginCommand_events (w : Word) (s : State) : (beginCommand w s).events = s.events := rfl
@[simp] theorem beginCommand_seen (w : Word) (s : State) : (beginCommand w s).seen = s.seen := rfl
@[simp] theorem beginCommand_pick (w : Word) (s : State) : (beginCommand w s).pick = s.pick := rfl
@[simp] theorem beginCommand_tick (w : Word) (s : State) : (beginCommand w s).tick = s.tick := rfl

/-! ## `raiseFault` -/

@[simp] theorem raiseFault_src (code : FCode) (info : Word) (s : State) : (raiseFault code info s).src = s.src := rfl
@[simp] theorem raiseFault_dst (code : FCode) (info : Word) (s : State) : (raiseFault code info s).dst = s.dst := rfl
@[simp] theorem raiseFault_len (code : FCode) (info : Word) (s : State) : (raiseFault code info s).len = s.len := rfl
@[simp] theorem raiseFault_cmd (code : FCode) (info : Word) (s : State) : (raiseFault code info s).cmd = s.cmd := rfl
@[simp] theorem raiseFault_busy (code : FCode) (info : Word) (s : State) : (raiseFault code info s).busy = s.busy := rfl
@[simp] theorem raiseFault_done (code : FCode) (info : Word) (s : State) : (raiseFault code info s).done = s.done := rfl
@[simp] theorem raiseFault_fault (code : FCode) (info : Word) (s : State) : (raiseFault code info s).fault = true := rfl
@[simp] theorem raiseFault_fever (code : FCode) (info : Word) (s : State) : (raiseFault code info s).fever = true := rfl
@[simp] theorem raiseFault_busyErr (code : FCode) (info : Word) (s : State) : (raiseFault code info s).busyErr = s.busyErr := rfl
@[simp] theorem raiseFault_fcode (code : FCode) (info : Word) (s : State) : (raiseFault code info s).fcode = code := rfl
@[simp] theorem raiseFault_finfo (code : FCode) (info : Word) (s : State) : (raiseFault code info s).finfo = info := rfl
@[simp] theorem raiseFault_tv4 (code : FCode) (info : Word) (s : State) : (raiseFault code info s).tv4 = s.tv4 := rfl
@[simp] theorem raiseFault_tv8 (code : FCode) (info : Word) (s : State) : (raiseFault code info s).tv8 = s.tv8 := rfl
@[simp] theorem raiseFault_tv16 (code : FCode) (info : Word) (s : State) : (raiseFault code info s).tv16 = s.tv16 := rfl
@[simp] theorem raiseFault_t4 (code : FCode) (info : Word) (s : State) : (raiseFault code info s).t4 = s.t4 := rfl
@[simp] theorem raiseFault_t8 (code : FCode) (info : Word) (s : State) : (raiseFault code info s).t8 = s.t8 := rfl
@[simp] theorem raiseFault_t16 (code : FCode) (info : Word) (s : State) : (raiseFault code info s).t16 = s.t16 := rfl
@[simp] theorem raiseFault_pos (code : FCode) (info : Word) (s : State) : (raiseFault code info s).pos = s.pos := rfl
@[simp] theorem raiseFault_vt (code : FCode) (info : Word) (s : State) : (raiseFault code info s).vt = s.vt := rfl
@[simp] theorem raiseFault_mem (code : FCode) (info : Word) (s : State) : (raiseFault code info s).mem = s.mem := rfl
@[simp] theorem raiseFault_params (code : FCode) (info : Word) (s : State) : (raiseFault code info s).params = s.params := rfl
@[simp] theorem raiseFault_events (code : FCode) (info : Word) (s : State) : (raiseFault code info s).events = s.events := rfl
@[simp] theorem raiseFault_seen (code : FCode) (info : Word) (s : State) : (raiseFault code info s).seen = s.seen := rfl
@[simp] theorem raiseFault_pick (code : FCode) (info : Word) (s : State) : (raiseFault code info s).pick = s.pick := rfl
@[simp] theorem raiseFault_tick (code : FCode) (info : Word) (s : State) : (raiseFault code info s).tick = s.tick := rfl

/-! ## `completeCommand` -/

@[simp] theorem completeCommand_src (s : State) : (completeCommand s).src = s.src := rfl
@[simp] theorem completeCommand_dst (s : State) : (completeCommand s).dst = s.dst := rfl
@[simp] theorem completeCommand_len (s : State) : (completeCommand s).len = s.len := rfl
@[simp] theorem completeCommand_cmd (s : State) : (completeCommand s).cmd = s.cmd := rfl
@[simp] theorem completeCommand_busy (s : State) : (completeCommand s).busy = false := rfl
@[simp] theorem completeCommand_done (s : State) : (completeCommand s).done = true := rfl
@[simp] theorem completeCommand_fault (s : State) : (completeCommand s).fault = s.fault := rfl
@[simp] theorem completeCommand_fever (s : State) : (completeCommand s).fever = s.fever := rfl
@[simp] theorem completeCommand_busyErr (s : State) : (completeCommand s).busyErr = s.busyErr := rfl
@[simp] theorem completeCommand_fcode (s : State) : (completeCommand s).fcode = s.fcode := rfl
@[simp] theorem completeCommand_finfo (s : State) : (completeCommand s).finfo = s.finfo := rfl
@[simp] theorem completeCommand_tv4 (s : State) : (completeCommand s).tv4 = s.tv4 := rfl
@[simp] theorem completeCommand_tv8 (s : State) : (completeCommand s).tv8 = s.tv8 := rfl
@[simp] theorem completeCommand_tv16 (s : State) : (completeCommand s).tv16 = s.tv16 := rfl
@[simp] theorem completeCommand_t4 (s : State) : (completeCommand s).t4 = s.t4 := rfl
@[simp] theorem completeCommand_t8 (s : State) : (completeCommand s).t8 = s.t8 := rfl
@[simp] theorem completeCommand_t16 (s : State) : (completeCommand s).t16 = s.t16 := rfl
@[simp] theorem completeCommand_pos (s : State) : (completeCommand s).pos = [] := rfl
@[simp] theorem completeCommand_vt (s : State) : (completeCommand s).vt = s.vt := rfl
@[simp] theorem completeCommand_mem (s : State) : (completeCommand s).mem = s.mem := rfl
@[simp] theorem completeCommand_params (s : State) : (completeCommand s).params = s.params := rfl
@[simp] theorem completeCommand_events (s : State) : (completeCommand s).events = s.events := rfl
@[simp] theorem completeCommand_seen (s : State) : (completeCommand s).seen = s.seen := rfl
@[simp] theorem completeCommand_pick (s : State) : (completeCommand s).pick = s.pick := rfl
@[simp] theorem completeCommand_tick (s : State) : (completeCommand s).tick = s.tick := rfl

/-! ## `applyReset` -/

@[simp] theorem applyReset_src (s : State) : (applyReset s).src = 0 := rfl
@[simp] theorem applyReset_dst (s : State) : (applyReset s).dst = 0 := rfl
@[simp] theorem applyReset_len (s : State) : (applyReset s).len = 0 := rfl
@[simp] theorem applyReset_cmd (s : State) : (applyReset s).cmd = 0 := rfl
@[simp] theorem applyReset_busy (s : State) : (applyReset s).busy = false := rfl
@[simp] theorem applyReset_done (s : State) : (applyReset s).done = false := rfl
@[simp] theorem applyReset_fault (s : State) : (applyReset s).fault = false := rfl
@[simp] theorem applyReset_fever (s : State) : (applyReset s).fever = false := rfl
@[simp] theorem applyReset_busyErr (s : State) : (applyReset s).busyErr = false := rfl
@[simp] theorem applyReset_fcode (s : State) : (applyReset s).fcode = .none := rfl
@[simp] theorem applyReset_finfo (s : State) : (applyReset s).finfo = 0 := rfl
@[simp] theorem applyReset_tv4 (s : State) : (applyReset s).tv4 = false := rfl
@[simp] theorem applyReset_tv8 (s : State) : (applyReset s).tv8 = false := rfl
@[simp] theorem applyReset_tv16 (s : State) : (applyReset s).tv16 = false := rfl
@[simp] theorem applyReset_t4 (s : State) : (applyReset s).t4 = [] := rfl
@[simp] theorem applyReset_t8 (s : State) : (applyReset s).t8 = [] := rfl
@[simp] theorem applyReset_t16 (s : State) : (applyReset s).t16 = [] := rfl
@[simp] theorem applyReset_pos (s : State) : (applyReset s).pos = [] := rfl
@[simp] theorem applyReset_vt (s : State) : (applyReset s).vt = [] := rfl
@[simp] theorem applyReset_mem (s : State) : (applyReset s).mem = s.mem := rfl
@[simp] theorem applyReset_params (s : State) : (applyReset s).params = s.params := rfl
@[simp] theorem applyReset_events (s : State) : (applyReset s).events = s.events := rfl
@[simp] theorem applyReset_seen (s : State) : (applyReset s).seen = s.seen := rfl
@[simp] theorem applyReset_pick (s : State) : (applyReset s).pick = s.pick := rfl
@[simp] theorem applyReset_tick (s : State) : (applyReset s).tick = s.tick := rfl

/-! ## `writeWhileBusy` -/

@[simp] theorem writeWhileBusy_src (s : State) : (writeWhileBusy s).src = s.src := rfl
@[simp] theorem writeWhileBusy_dst (s : State) : (writeWhileBusy s).dst = s.dst := rfl
@[simp] theorem writeWhileBusy_len (s : State) : (writeWhileBusy s).len = s.len := rfl
@[simp] theorem writeWhileBusy_cmd (s : State) : (writeWhileBusy s).cmd = s.cmd := rfl
@[simp] theorem writeWhileBusy_busy (s : State) : (writeWhileBusy s).busy = s.busy := rfl
@[simp] theorem writeWhileBusy_done (s : State) : (writeWhileBusy s).done = s.done := rfl
@[simp] theorem writeWhileBusy_fault (s : State) : (writeWhileBusy s).fault = s.fault := rfl
@[simp] theorem writeWhileBusy_fever (s : State) : (writeWhileBusy s).fever = s.fever := rfl
@[simp] theorem writeWhileBusy_busyErr (s : State) : (writeWhileBusy s).busyErr = true := rfl
@[simp] theorem writeWhileBusy_fcode (s : State) : (writeWhileBusy s).fcode = s.fcode := rfl
@[simp] theorem writeWhileBusy_finfo (s : State) : (writeWhileBusy s).finfo = s.finfo := rfl
@[simp] theorem writeWhileBusy_tv4 (s : State) : (writeWhileBusy s).tv4 = s.tv4 := rfl
@[simp] theorem writeWhileBusy_tv8 (s : State) : (writeWhileBusy s).tv8 = s.tv8 := rfl
@[simp] theorem writeWhileBusy_tv16 (s : State) : (writeWhileBusy s).tv16 = s.tv16 := rfl
@[simp] theorem writeWhileBusy_t4 (s : State) : (writeWhileBusy s).t4 = s.t4 := rfl
@[simp] theorem writeWhileBusy_t8 (s : State) : (writeWhileBusy s).t8 = s.t8 := rfl
@[simp] theorem writeWhileBusy_t16 (s : State) : (writeWhileBusy s).t16 = s.t16 := rfl
@[simp] theorem writeWhileBusy_pos (s : State) : (writeWhileBusy s).pos = s.pos := rfl
@[simp] theorem writeWhileBusy_vt (s : State) : (writeWhileBusy s).vt = s.vt := rfl
@[simp] theorem writeWhileBusy_mem (s : State) : (writeWhileBusy s).mem = s.mem := rfl
@[simp] theorem writeWhileBusy_params (s : State) : (writeWhileBusy s).params = s.params := rfl
@[simp] theorem writeWhileBusy_events (s : State) : (writeWhileBusy s).events = s.events := rfl
@[simp] theorem writeWhileBusy_seen (s : State) : (writeWhileBusy s).seen = s.seen := rfl
@[simp] theorem writeWhileBusy_pick (s : State) : (writeWhileBusy s).pick = s.pick := rfl
@[simp] theorem writeWhileBusy_tick (s : State) : (writeWhileBusy s).tick = s.tick := rfl

/-! ## `observe` -/

@[simp] theorem observe_src (o : Observation) (s : State) : (observe o s).src = s.src := rfl
@[simp] theorem observe_dst (o : Observation) (s : State) : (observe o s).dst = s.dst := rfl
@[simp] theorem observe_len (o : Observation) (s : State) : (observe o s).len = s.len := rfl
@[simp] theorem observe_cmd (o : Observation) (s : State) : (observe o s).cmd = s.cmd := rfl
@[simp] theorem observe_busy (o : Observation) (s : State) : (observe o s).busy = s.busy := rfl
@[simp] theorem observe_done (o : Observation) (s : State) : (observe o s).done = s.done := rfl
@[simp] theorem observe_fault (o : Observation) (s : State) : (observe o s).fault = s.fault := rfl
@[simp] theorem observe_fever (o : Observation) (s : State) : (observe o s).fever = s.fever := rfl
@[simp] theorem observe_busyErr (o : Observation) (s : State) : (observe o s).busyErr = s.busyErr := rfl
@[simp] theorem observe_fcode (o : Observation) (s : State) : (observe o s).fcode = s.fcode := rfl
@[simp] theorem observe_finfo (o : Observation) (s : State) : (observe o s).finfo = s.finfo := rfl
@[simp] theorem observe_tv4 (o : Observation) (s : State) : (observe o s).tv4 = s.tv4 := rfl
@[simp] theorem observe_tv8 (o : Observation) (s : State) : (observe o s).tv8 = s.tv8 := rfl
@[simp] theorem observe_tv16 (o : Observation) (s : State) : (observe o s).tv16 = s.tv16 := rfl
@[simp] theorem observe_t4 (o : Observation) (s : State) : (observe o s).t4 = s.t4 := rfl
@[simp] theorem observe_t8 (o : Observation) (s : State) : (observe o s).t8 = s.t8 := rfl
@[simp] theorem observe_t16 (o : Observation) (s : State) : (observe o s).t16 = s.t16 := rfl
@[simp] theorem observe_pos (o : Observation) (s : State) : (observe o s).pos = s.pos := rfl
@[simp] theorem observe_vt (o : Observation) (s : State) : (observe o s).vt = s.vt := rfl
@[simp] theorem observe_mem (o : Observation) (s : State) : (observe o s).mem = s.mem := rfl
@[simp] theorem observe_params (o : Observation) (s : State) : (observe o s).params = s.params := rfl
@[simp] theorem observe_events (o : Observation) (s : State) : (observe o s).events = s.events := rfl
@[simp] theorem observe_seen (o : Observation) (s : State) : (observe o s).seen = s.seen ++ [o] := rfl
@[simp] theorem observe_pick (o : Observation) (s : State) : (observe o s).pick = s.pick := rfl
@[simp] theorem observe_tick (o : Observation) (s : State) : (observe o s).tick = s.tick := rfl

/-! ## `placeCommand` -/

@[simp] theorem placeCommand_src (w : Word) (s : State) : (placeCommand w s).src = s.src := rfl
@[simp] theorem placeCommand_dst (w : Word) (s : State) : (placeCommand w s).dst = s.dst := rfl
@[simp] theorem placeCommand_len (w : Word) (s : State) : (placeCommand w s).len = s.len := rfl
@[simp] theorem placeCommand_cmd (w : Word) (s : State) : (placeCommand w s).cmd = s.cmd := rfl
@[simp] theorem placeCommand_busy (w : Word) (s : State) : (placeCommand w s).busy = false := rfl
@[simp] theorem placeCommand_done (w : Word) (s : State) : (placeCommand w s).done = s.done := rfl
@[simp] theorem placeCommand_fault (w : Word) (s : State) : (placeCommand w s).fault = s.fault := rfl
@[simp] theorem placeCommand_fever (w : Word) (s : State) : (placeCommand w s).fever = s.fever := rfl
@[simp] theorem placeCommand_busyErr (w : Word) (s : State) : (placeCommand w s).busyErr = s.busyErr := rfl
@[simp] theorem placeCommand_fcode (w : Word) (s : State) : (placeCommand w s).fcode = s.fcode := rfl
@[simp] theorem placeCommand_finfo (w : Word) (s : State) : (placeCommand w s).finfo = s.finfo := rfl
@[simp] theorem placeCommand_tv4 (w : Word) (s : State) : (placeCommand w s).tv4 = s.tv4 := rfl
@[simp] theorem placeCommand_tv8 (w : Word) (s : State) : (placeCommand w s).tv8 = s.tv8 := rfl
@[simp] theorem placeCommand_tv16 (w : Word) (s : State) : (placeCommand w s).tv16 = s.tv16 := rfl
@[simp] theorem placeCommand_t4 (w : Word) (s : State) : (placeCommand w s).t4 = s.t4 := rfl
@[simp] theorem placeCommand_t8 (w : Word) (s : State) : (placeCommand w s).t8 = s.t8 := rfl
@[simp] theorem placeCommand_t16 (w : Word) (s : State) : (placeCommand w s).t16 = s.t16 := rfl
@[simp] theorem placeCommand_pos (w : Word) (s : State) : (placeCommand w s).pos = [] := rfl
@[simp] theorem placeCommand_vt (w : Word) (s : State) : (placeCommand w s).vt = s.vt := rfl
@[simp] theorem placeCommand_mem (w : Word) (s : State) : (placeCommand w s).mem = s.mem := rfl
@[simp] theorem placeCommand_params (w : Word) (s : State) : (placeCommand w s).params = s.params := rfl
@[simp] theorem placeCommand_events (w : Word) (s : State) : (placeCommand w s).events = .writeReg .cmd w :: s.events := rfl
@[simp] theorem placeCommand_seen (w : Word) (s : State) : (placeCommand w s).seen = s.seen := rfl
@[simp] theorem placeCommand_pick (w : Word) (s : State) : (placeCommand w s).pick = s.pick := rfl
@[simp] theorem placeCommand_tick (w : Word) (s : State) : (placeCommand w s).tick = s.tick := rfl

/-! ## `build4` -/

@[simp] theorem build4_src (s : State) : (build4 s).src = s.src := by unfold build4; split <;> rfl
@[simp] theorem build4_dst (s : State) : (build4 s).dst = s.dst := by unfold build4; split <;> rfl
@[simp] theorem build4_len (s : State) : (build4 s).len = s.len := by unfold build4; split <;> rfl
@[simp] theorem build4_cmd (s : State) : (build4 s).cmd = s.cmd := by unfold build4; split <;> rfl
@[simp] theorem build4_busy (s : State) : (build4 s).busy = s.busy := by unfold build4; split <;> rfl
@[simp] theorem build4_done (s : State) : (build4 s).done = s.done := by unfold build4; split <;> rfl
@[simp] theorem build4_fault (s : State) : (build4 s).fault = s.fault := by unfold build4; split <;> rfl
@[simp] theorem build4_fever (s : State) : (build4 s).fever = s.fever := by unfold build4; split <;> rfl
@[simp] theorem build4_busyErr (s : State) : (build4 s).busyErr = s.busyErr := by unfold build4; split <;> rfl
@[simp] theorem build4_fcode (s : State) : (build4 s).fcode = s.fcode := by unfold build4; split <;> rfl
@[simp] theorem build4_finfo (s : State) : (build4 s).finfo = s.finfo := by unfold build4; split <;> rfl
@[simp] theorem build4_tv4 (s : State) : (build4 s).tv4 = true := by unfold build4; split <;> simp_all
@[simp] theorem build4_tv8 (s : State) : (build4 s).tv8 = s.tv8 := by unfold build4; split <;> rfl
@[simp] theorem build4_tv16 (s : State) : (build4 s).tv16 = s.tv16 := by unfold build4; split <;> rfl
@[simp] theorem build4_t4 (s : State) : (build4 s).t4 = (if s.tv4 then s.t4 else entries4) := by unfold build4; split <;> rfl
@[simp] theorem build4_t8 (s : State) : (build4 s).t8 = s.t8 := by unfold build4; split <;> rfl
@[simp] theorem build4_t16 (s : State) : (build4 s).t16 = s.t16 := by unfold build4; split <;> rfl
@[simp] theorem build4_pos (s : State) : (build4 s).pos = s.pos := by unfold build4; split <;> rfl
@[simp] theorem build4_vt (s : State) : (build4 s).vt = s.vt := by unfold build4; split <;> rfl
@[simp] theorem build4_mem (s : State) : (build4 s).mem = s.mem := by unfold build4; split <;> rfl
@[simp] theorem build4_params (s : State) : (build4 s).params = s.params := by unfold build4; split <;> rfl
@[simp] theorem build4_events (s : State) : (build4 s).events = s.events := by unfold build4; split <;> rfl
@[simp] theorem build4_seen (s : State) : (build4 s).seen = s.seen := by unfold build4; split <;> rfl
@[simp] theorem build4_pick (s : State) : (build4 s).pick = s.pick := by unfold build4; split <;> rfl
@[simp] theorem build4_tick (s : State) : (build4 s).tick = s.tick := by unfold build4; split <;> rfl

/-! ## `build8` -/

@[simp] theorem build8_src (s : State) : (build8 s).src = s.src := by unfold build8; split <;> simp
@[simp] theorem build8_dst (s : State) : (build8 s).dst = s.dst := by unfold build8; split <;> simp
@[simp] theorem build8_len (s : State) : (build8 s).len = s.len := by unfold build8; split <;> simp
@[simp] theorem build8_cmd (s : State) : (build8 s).cmd = s.cmd := by unfold build8; split <;> simp
@[simp] theorem build8_busy (s : State) : (build8 s).busy = s.busy := by unfold build8; split <;> simp
@[simp] theorem build8_done (s : State) : (build8 s).done = s.done := by unfold build8; split <;> simp
@[simp] theorem build8_fault (s : State) : (build8 s).fault = s.fault := by unfold build8; split <;> simp
@[simp] theorem build8_fever (s : State) : (build8 s).fever = s.fever := by unfold build8; split <;> simp
@[simp] theorem build8_busyErr (s : State) : (build8 s).busyErr = s.busyErr := by unfold build8; split <;> simp
@[simp] theorem build8_fcode (s : State) : (build8 s).fcode = s.fcode := by unfold build8; split <;> simp
@[simp] theorem build8_finfo (s : State) : (build8 s).finfo = s.finfo := by unfold build8; split <;> simp
@[simp] theorem build8_tv4 (s : State) : (build8 s).tv4 = true := by unfold build8; split <;> simp
@[simp] theorem build8_tv8 (s : State) : (build8 s).tv8 = true := by unfold build8; split <;> simp_all
@[simp] theorem build8_tv16 (s : State) : (build8 s).tv16 = s.tv16 := by unfold build8; split <;> simp
@[simp] theorem build8_t4 (s : State) : (build8 s).t4 = (build4 s).t4 := by unfold build8; split <;> rfl
@[simp] theorem build8_t8 (s : State) : (build8 s).t8 = (if s.tv8 then s.t8 else entries8 (build4 s)) := by unfold build8; simp only [build4_tv8]; split <;> simp
@[simp] theorem build8_t16 (s : State) : (build8 s).t16 = s.t16 := by unfold build8; split <;> simp
@[simp] theorem build8_pos (s : State) : (build8 s).pos = s.pos := by unfold build8; split <;> simp
@[simp] theorem build8_vt (s : State) : (build8 s).vt = s.vt := by unfold build8; split <;> simp
@[simp] theorem build8_mem (s : State) : (build8 s).mem = s.mem := by unfold build8; split <;> simp
@[simp] theorem build8_params (s : State) : (build8 s).params = s.params := by unfold build8; split <;> simp
@[simp] theorem build8_events (s : State) : (build8 s).events = s.events := by unfold build8; split <;> simp
@[simp] theorem build8_seen (s : State) : (build8 s).seen = s.seen := by unfold build8; split <;> simp
@[simp] theorem build8_pick (s : State) : (build8 s).pick = s.pick := by unfold build8; split <;> simp
@[simp] theorem build8_tick (s : State) : (build8 s).tick = s.tick := by unfold build8; split <;> simp

/-! ## `build16` -/

@[simp] theorem build16_src (s : State) : (build16 s).src = s.src := by unfold build16; split <;> simp
@[simp] theorem build16_dst (s : State) : (build16 s).dst = s.dst := by unfold build16; split <;> simp
@[simp] theorem build16_len (s : State) : (build16 s).len = s.len := by unfold build16; split <;> simp
@[simp] theorem build16_cmd (s : State) : (build16 s).cmd = s.cmd := by unfold build16; split <;> simp
@[simp] theorem build16_busy (s : State) : (build16 s).busy = s.busy := by unfold build16; split <;> simp
@[simp] theorem build16_done (s : State) : (build16 s).done = s.done := by unfold build16; split <;> simp
@[simp] theorem build16_fault (s : State) : (build16 s).fault = s.fault := by unfold build16; split <;> simp
@[simp] theorem build16_fever (s : State) : (build16 s).fever = s.fever := by unfold build16; split <;> simp
@[simp] theorem build16_busyErr (s : State) : (build16 s).busyErr = s.busyErr := by unfold build16; split <;> simp
@[simp] theorem build16_fcode (s : State) : (build16 s).fcode = s.fcode := by unfold build16; split <;> simp
@[simp] theorem build16_finfo (s : State) : (build16 s).finfo = s.finfo := by unfold build16; split <;> simp
@[simp] theorem build16_tv4 (s : State) : (build16 s).tv4 = true := by unfold build16; split <;> simp
@[simp] theorem build16_tv8 (s : State) : (build16 s).tv8 = true := by unfold build16; split <;> simp
@[simp] theorem build16_tv16 (s : State) : (build16 s).tv16 = true := by unfold build16; split <;> simp_all
@[simp] theorem build16_t4 (s : State) : (build16 s).t4 = (build4 s).t4 := by unfold build16; split <;> simp
@[simp] theorem build16_t8 (s : State) : (build16 s).t8 = (build8 s).t8 := by unfold build16; split <;> rfl
@[simp] theorem build16_t16 (s : State) : (build16 s).t16 = (if s.tv16 then s.t16 else entries16 (build8 s)) := by unfold build16; simp only [build8_tv16]; split <;> simp
@[simp] theorem build16_pos (s : State) : (build16 s).pos = s.pos := by unfold build16; split <;> simp
@[simp] theorem build16_vt (s : State) : (build16 s).vt = s.vt := by unfold build16; split <;> simp
@[simp] theorem build16_mem (s : State) : (build16 s).mem = s.mem := by unfold build16; split <;> simp
@[simp] theorem build16_params (s : State) : (build16 s).params = s.params := by unfold build16; split <;> simp
@[simp] theorem build16_events (s : State) : (build16 s).events = s.events := by unfold build16; split <;> simp
@[simp] theorem build16_seen (s : State) : (build16 s).seen = s.seen := by unfold build16; split <;> simp
@[simp] theorem build16_pick (s : State) : (build16 s).pick = s.pick := by unfold build16; split <;> simp
@[simp] theorem build16_tick (s : State) : (build16 s).tick = s.tick := by unfold build16; split <;> simp

/-! ## `buildTables` -/

@[simp] theorem buildTables_src (n : Option TableName) (s : State) : (buildTables n s).src = s.src := by cases n with
  | none => rfl
  | some n => cases n <;> simp [buildTables]
@[simp] theorem buildTables_dst (n : Option TableName) (s : State) : (buildTables n s).dst = s.dst := by cases n with
  | none => rfl
  | some n => cases n <;> simp [buildTables]
@[simp] theorem buildTables_len (n : Option TableName) (s : State) : (buildTables n s).len = s.len := by cases n with
  | none => rfl
  | some n => cases n <;> simp [buildTables]
@[simp] theorem buildTables_cmd (n : Option TableName) (s : State) : (buildTables n s).cmd = s.cmd := by cases n with
  | none => rfl
  | some n => cases n <;> simp [buildTables]
@[simp] theorem buildTables_busy (n : Option TableName) (s : State) : (buildTables n s).busy = s.busy := by cases n with
  | none => rfl
  | some n => cases n <;> simp [buildTables]
@[simp] theorem buildTables_done (n : Option TableName) (s : State) : (buildTables n s).done = s.done := by cases n with
  | none => rfl
  | some n => cases n <;> simp [buildTables]
@[simp] theorem buildTables_fault (n : Option TableName) (s : State) : (buildTables n s).fault = s.fault := by cases n with
  | none => rfl
  | some n => cases n <;> simp [buildTables]
@[simp] theorem buildTables_fever (n : Option TableName) (s : State) : (buildTables n s).fever = s.fever := by cases n with
  | none => rfl
  | some n => cases n <;> simp [buildTables]
@[simp] theorem buildTables_busyErr (n : Option TableName) (s : State) : (buildTables n s).busyErr = s.busyErr := by cases n with
  | none => rfl
  | some n => cases n <;> simp [buildTables]
@[simp] theorem buildTables_fcode (n : Option TableName) (s : State) : (buildTables n s).fcode = s.fcode := by cases n with
  | none => rfl
  | some n => cases n <;> simp [buildTables]
@[simp] theorem buildTables_finfo (n : Option TableName) (s : State) : (buildTables n s).finfo = s.finfo := by cases n with
  | none => rfl
  | some n => cases n <;> simp [buildTables]
@[simp] theorem buildTables_pos (n : Option TableName) (s : State) : (buildTables n s).pos = s.pos := by cases n with
  | none => rfl
  | some n => cases n <;> simp [buildTables]
@[simp] theorem buildTables_vt (n : Option TableName) (s : State) : (buildTables n s).vt = s.vt := by cases n with
  | none => rfl
  | some n => cases n <;> simp [buildTables]
@[simp] theorem buildTables_mem (n : Option TableName) (s : State) : (buildTables n s).mem = s.mem := by cases n with
  | none => rfl
  | some n => cases n <;> simp [buildTables]
@[simp] theorem buildTables_params (n : Option TableName) (s : State) : (buildTables n s).params = s.params := by cases n with
  | none => rfl
  | some n => cases n <;> simp [buildTables]
@[simp] theorem buildTables_events (n : Option TableName) (s : State) : (buildTables n s).events = s.events := by cases n with
  | none => rfl
  | some n => cases n <;> simp [buildTables]
@[simp] theorem buildTables_seen (n : Option TableName) (s : State) : (buildTables n s).seen = s.seen := by cases n with
  | none => rfl
  | some n => cases n <;> simp [buildTables]
@[simp] theorem buildTables_pick (n : Option TableName) (s : State) : (buildTables n s).pick = s.pick := by cases n with
  | none => rfl
  | some n => cases n <;> simp [buildTables]
@[simp] theorem buildTables_tick (n : Option TableName) (s : State) : (buildTables n s).tick = s.tick := by cases n with
  | none => rfl
  | some n => cases n <;> simp [buildTables]

/-- A command that names a table leaves `T4` built (R192: every larger table is built from it). -/
theorem buildTables_tv4 (n : Option TableName) (s : State) : (buildTables n s).tv4 = (s.tv4 || n.isSome) := by
  cases n with
  | none => simp [buildTables]
  | some n => cases n <;> simp [buildTables]

/-- `T8` is built exactly by a command that names `T8` or `T16` (R194). -/
theorem buildTables_tv8 (n : Option TableName) (s : State) :
    (buildTables n s).tv8 = (s.tv8 || decide (n = some .t8 ∨ n = some .t16)) := by
  cases n with
  | none => simp [buildTables]
  | some n => cases n <;> simp [buildTables]

/-- `T16` is built exactly by a command that names it (R194). -/
theorem buildTables_tv16 (n : Option TableName) (s : State) :
    (buildTables n s).tv16 = (s.tv16 || decide (n = some .t16)) := by
  cases n with
  | none => simp [buildTables]
  | some n => cases n <;> simp [buildTables]

/-! ## `loadVT` -/

@[simp] theorem loadVT_src (i : Instr) (s : State) : (loadVT i s).src = s.src := by cases i <;> rfl
@[simp] theorem loadVT_dst (i : Instr) (s : State) : (loadVT i s).dst = s.dst := by cases i <;> rfl
@[simp] theorem loadVT_len (i : Instr) (s : State) : (loadVT i s).len = s.len := by cases i <;> rfl
@[simp] theorem loadVT_cmd (i : Instr) (s : State) : (loadVT i s).cmd = s.cmd := by cases i <;> rfl
@[simp] theorem loadVT_busy (i : Instr) (s : State) : (loadVT i s).busy = s.busy := by cases i <;> rfl
@[simp] theorem loadVT_done (i : Instr) (s : State) : (loadVT i s).done = s.done := by cases i <;> rfl
@[simp] theorem loadVT_fault (i : Instr) (s : State) : (loadVT i s).fault = s.fault := by cases i <;> rfl
@[simp] theorem loadVT_fever (i : Instr) (s : State) : (loadVT i s).fever = s.fever := by cases i <;> rfl
@[simp] theorem loadVT_busyErr (i : Instr) (s : State) : (loadVT i s).busyErr = s.busyErr := by cases i <;> rfl
@[simp] theorem loadVT_fcode (i : Instr) (s : State) : (loadVT i s).fcode = s.fcode := by cases i <;> rfl
@[simp] theorem loadVT_finfo (i : Instr) (s : State) : (loadVT i s).finfo = s.finfo := by cases i <;> rfl
@[simp] theorem loadVT_tv4 (i : Instr) (s : State) : (loadVT i s).tv4 = s.tv4 := by cases i <;> rfl
@[simp] theorem loadVT_tv8 (i : Instr) (s : State) : (loadVT i s).tv8 = s.tv8 := by cases i <;> rfl
@[simp] theorem loadVT_tv16 (i : Instr) (s : State) : (loadVT i s).tv16 = s.tv16 := by cases i <;> rfl
@[simp] theorem loadVT_t4 (i : Instr) (s : State) : (loadVT i s).t4 = s.t4 := by cases i <;> rfl
@[simp] theorem loadVT_t8 (i : Instr) (s : State) : (loadVT i s).t8 = s.t8 := by cases i <;> rfl
@[simp] theorem loadVT_t16 (i : Instr) (s : State) : (loadVT i s).t16 = s.t16 := by cases i <;> rfl
@[simp] theorem loadVT_pos (i : Instr) (s : State) : (loadVT i s).pos = s.pos := by cases i <;> rfl
@[simp] theorem loadVT_mem (i : Instr) (s : State) : (loadVT i s).mem = s.mem := by cases i <;> rfl
@[simp] theorem loadVT_params (i : Instr) (s : State) : (loadVT i s).params = s.params := by cases i <;> rfl
@[simp] theorem loadVT_events (i : Instr) (s : State) : (loadVT i s).events = s.events := by cases i <;> rfl
@[simp] theorem loadVT_seen (i : Instr) (s : State) : (loadVT i s).seen = s.seen := by cases i <;> rfl
@[simp] theorem loadVT_pick (i : Instr) (s : State) : (loadVT i s).pick = s.pick := by cases i <;> rfl
@[simp] theorem loadVT_tick (i : Instr) (s : State) : (loadVT i s).tick = s.tick := by cases i <;> rfl

/-! ## `launch` -/

@[simp] theorem launch_src (i : Instr) (s : State) : (launch i s).src = s.src := by
  rw [← buildTables_src (tableNamed i) s, ← loadVT_src i (buildTables (tableNamed i) s)]; rfl
@[simp] theorem launch_dst (i : Instr) (s : State) : (launch i s).dst = s.dst := by
  rw [← buildTables_dst (tableNamed i) s, ← loadVT_dst i (buildTables (tableNamed i) s)]; rfl
@[simp] theorem launch_len (i : Instr) (s : State) : (launch i s).len = s.len := by
  rw [← buildTables_len (tableNamed i) s, ← loadVT_len i (buildTables (tableNamed i) s)]; rfl
@[simp] theorem launch_cmd (i : Instr) (s : State) : (launch i s).cmd = s.cmd := by
  rw [← buildTables_cmd (tableNamed i) s, ← loadVT_cmd i (buildTables (tableNamed i) s)]; rfl
@[simp] theorem launch_busy (i : Instr) (s : State) : (launch i s).busy = true := rfl
@[simp] theorem launch_done (i : Instr) (s : State) : (launch i s).done = s.done := by
  rw [← buildTables_done (tableNamed i) s, ← loadVT_done i (buildTables (tableNamed i) s)]; rfl
@[simp] theorem launch_fault (i : Instr) (s : State) : (launch i s).fault = s.fault := by
  rw [← buildTables_fault (tableNamed i) s, ← loadVT_fault i (buildTables (tableNamed i) s)]; rfl
@[simp] theorem launch_fever (i : Instr) (s : State) : (launch i s).fever = s.fever := by
  rw [← buildTables_fever (tableNamed i) s, ← loadVT_fever i (buildTables (tableNamed i) s)]; rfl
@[simp] theorem launch_busyErr (i : Instr) (s : State) : (launch i s).busyErr = s.busyErr := by
  rw [← buildTables_busyErr (tableNamed i) s, ← loadVT_busyErr i (buildTables (tableNamed i) s)]; rfl
@[simp] theorem launch_fcode (i : Instr) (s : State) : (launch i s).fcode = s.fcode := by
  rw [← buildTables_fcode (tableNamed i) s, ← loadVT_fcode i (buildTables (tableNamed i) s)]; rfl
@[simp] theorem launch_finfo (i : Instr) (s : State) : (launch i s).finfo = s.finfo := by
  rw [← buildTables_finfo (tableNamed i) s, ← loadVT_finfo i (buildTables (tableNamed i) s)]; rfl
@[simp] theorem launch_tv4 (i : Instr) (s : State) : (launch i s).tv4 = (buildTables (tableNamed i) s).tv4 := loadVT_tv4 i _
@[simp] theorem launch_tv8 (i : Instr) (s : State) : (launch i s).tv8 = (buildTables (tableNamed i) s).tv8 := loadVT_tv8 i _
@[simp] theorem launch_tv16 (i : Instr) (s : State) : (launch i s).tv16 = (buildTables (tableNamed i) s).tv16 := loadVT_tv16 i _
@[simp] theorem launch_t4 (i : Instr) (s : State) : (launch i s).t4 = (buildTables (tableNamed i) s).t4 := loadVT_t4 i _
@[simp] theorem launch_t8 (i : Instr) (s : State) : (launch i s).t8 = (buildTables (tableNamed i) s).t8 := loadVT_t8 i _
@[simp] theorem launch_t16 (i : Instr) (s : State) : (launch i s).t16 = (buildTables (tableNamed i) s).t16 := loadVT_t16 i _
@[simp] theorem launch_pos (i : Instr) (s : State) : (launch i s).pos = List.replicate (chunkCount i) 0 := rfl
@[simp] theorem launch_vt (i : Instr) (s : State) : (launch i s).vt = (loadVT i (buildTables (tableNamed i) s)).vt := rfl
@[simp] theorem launch_mem (i : Instr) (s : State) : (launch i s).mem = s.mem := by
  rw [← buildTables_mem (tableNamed i) s, ← loadVT_mem i (buildTables (tableNamed i) s)]; rfl
@[simp] theorem launch_params (i : Instr) (s : State) : (launch i s).params = s.params := by
  rw [← buildTables_params (tableNamed i) s, ← loadVT_params i (buildTables (tableNamed i) s)]; rfl
@[simp] theorem launch_events (i : Instr) (s : State) : (launch i s).events = s.events := by
  rw [← buildTables_events (tableNamed i) s, ← loadVT_events i (buildTables (tableNamed i) s)]; rfl
@[simp] theorem launch_seen (i : Instr) (s : State) : (launch i s).seen = s.seen := by
  rw [← buildTables_seen (tableNamed i) s, ← loadVT_seen i (buildTables (tableNamed i) s)]; rfl
@[simp] theorem launch_pick (i : Instr) (s : State) : (launch i s).pick = s.pick := by
  rw [← buildTables_pick (tableNamed i) s, ← loadVT_pick i (buildTables (tableNamed i) s)]; rfl
@[simp] theorem launch_tick (i : Instr) (s : State) : (launch i s).tick = s.tick := by
  rw [← buildTables_tick (tableNamed i) s, ← loadVT_tick i (buildTables (tableNamed i) s)]; rfl

end Sys2Proof.Machine
end

