-- ==== Sys2Proof/Laws/Command.lean ====
section
/-! SUPPORT. What the shared operations of a command can do, said once each: the start step, the step of a chunk, the turn of
a running command, and the meaning of each command in terms of them. -/

namespace Sys2Proof.Machine

/-- The bytes of a block are as many as the count says. -/
@[simp] theorem unpackBE_length (n : Nat) {T : Nat} (w : BitVec T) : (unpackBE n w).length = n := by
  simp [unpackBE]

/-- The expansion is twice as long as its input (R71). -/
@[simp] theorem expand_length_eq (bs : List Byte) : (expand bs).length = 2 * bs.length := by
  induction bs with
  | nil => rfl
  | cons v bs ih => simp [expand, ih]; omega

/-- An access faults in the model only outside the address space or on unbacked memory. -/
theorem accessFault_eq_none {s : State} {a n : Nat} :
    accessFault s a n = none ↔ a + n ≤ Config.addressSpace ∧ memOkRange s.params a n = true := by
  unfold accessFault
  split
  · simp; omega
  · split <;> simp_all

/-- The start step of an expand command: one fault in which only the report changes, or the launch. -/
theorem startExpand_cases (i : Instr) (s : State) :
    (∃ code info, startFault i s = some (code, info) ∧ startExpand i s = raiseFault code info s) ∨
    (startFault i s = none ∧ startExpand i s = launch i s) := by
  unfold startExpand
  cases h : startFault i s with
  | none => exact .inr ⟨rfl, rfl⟩
  | some p => exact .inl ⟨p.1, p.2, rfl, rfl⟩

/-- The step of a chunk, where it answers a next state: both accesses are allowed, and only memory and the chunk's cursor have
changed. -/
theorem chunkStep_next {i : Instr} {block : State → List Byte → List Byte} {k : Nat} {s t : State}
    (h : chunkStep i block k s = .next t) :
    accessFault s (nextInput i s k) (nextGroupSize i s k) = none ∧
    accessFault s (nextOutput i s k) (2 * nextGroupSize i s k) = none ∧
    t = { s with
      mem := s.mem.writeBytes (nextOutput i s k) (block s (s.mem.readBytes (nextInput i s k) (nextGroupSize i s k)))
      pos := s.pos.set k (cursor s k + nextGroupSize i s k) } := by
  unfold chunkStep at h
  split at h
  · cases h
  · cases h
  · exact ⟨‹_›, ‹_›, by cases h; rfl⟩

/-- A chunk has work exactly when it is one of the command's and its cursor is short of its length (R127). -/
theorem mem_chunksWithWork {i : Instr} {s : State} {k : Nat} :
    k ∈ chunksWithWork i s ↔ k < chunkCount i ∧ cursor s k < chunkLength i s k := by
  simp [chunksWithWork]

/-- The turn of a running expand command, where it answers a next state: the completion where no chunk has work, and otherwise
the step of a chunk that has. -/
theorem busyExpand_next {i : Instr} {block : State → List Byte → List Byte} {s t : State}
    (h : busyExpand i block s = .next t) :
    (chunksWithWork i s = [] ∧ t = completeCommand s) ∨
    ∃ k, k ∈ chunksWithWork i s ∧ (chunksWithWork i s)[s.pick % (chunksWithWork i s).length]? = some k ∧
      chunkStep i block k s = .next t := by
  unfold busyExpand at h
  split at h
  · exact .inl ⟨‹_›, by cases h; rfl⟩
  · rename_i k ks hks
    have hlt : s.pick % (k :: ks).length < (k :: ks).length := Nat.mod_lt _ (by simp)
    rw [List.getD_eq_getElem?_getD, List.getElem?_eq_getElem hlt, Option.getD_some] at h
    exact .inr ⟨(k :: ks)[s.pick % (k :: ks).length], by rw [hks]; exact List.getElem_mem hlt,
      by rw [hks]; exact List.getElem?_eq_getElem hlt, h⟩

/-- An expand command, where it answers a next state. -/
theorem runExpand_next {i : Instr} {block : State → List Byte → List Byte} {s t : State}
    (h : runExpand i block s = .next t) :
    (s.busy = false ∧ t = startExpand i s) ∨ (s.busy = true ∧ busyExpand i block s = .next t) := by
  unfold runExpand at h
  split at h
  · exact .inr ⟨‹_›, h⟩
  · exact .inl ⟨by simpa using ‹¬s.busy = true›, by cases h; rfl⟩

/-- A table-build command always answers a next state: the tables built and `BUSY` in its start step, then the completion. -/
theorem runTableBuild_next {i : Instr} {s t : State} (h : runTableBuild i s = .next t) :
    (s.busy = false ∧ t = { buildTables (tableNamed i) s with busy := true }) ∨
    (s.busy = true ∧ t = completeCommand s) := by
  unfold runTableBuild at h
  split at h
  · exact .inr ⟨‹_›, by cases h; rfl⟩
  · exact .inl ⟨by simpa using ‹¬s.busy = true›, by cases h; rfl⟩

/-- Every meaning is one of the two shared operations: an expand command with the block formula of its kernel, or a table
build. -/
theorem exec_cases (i : Instr) :
    (∃ block, ∀ s, exec i s = runExpand i block s) ∨
    ((i = .tbld4 ∨ i = .tbld8 ∨ i = .tbld16) ∧ ∀ s, exec i s = runTableBuild i s) := by
  cases i with
  | xscl nch => exact .inl ⟨blockXscl, fun _ => rfl⟩
  | xw8 nch => exact .inl ⟨blockXw8, fun _ => rfl⟩
  | xw16 nch => exact .inl ⟨blockXw16, fun _ => rfl⟩
  | xw32 nch => exact .inl ⟨blockXw32, fun _ => rfl⟩
  | xw64 nch => exact .inl ⟨blockXw64, fun _ => rfl⟩
  | xben nch => exact .inl ⟨blockXben, fun _ => rfl⟩
  | xbenk nch => exact .inl ⟨blockXbenk, fun _ => rfl⟩
  | xlau3 nch => exact .inl ⟨blockXlau3, fun _ => rfl⟩
  | xlau4 nch => exact .inl ⟨blockXlau4, fun _ => rfl⟩
  | xlut4 nch => exact .inl ⟨blockXlut4, fun _ => rfl⟩
  | xlut8 nch => exact .inl ⟨blockXlut8, fun _ => rfl⟩
  | xlut16 nch => exact .inl ⟨blockXlut16, fun _ => rfl⟩
  | xvzip vls nch => exact .inl ⟨blockXvzip vls, fun _ => rfl⟩
  | xvtbl vls nch => exact .inl ⟨blockXvtbl vls, fun _ => rfl⟩
  | tbld4 => exact .inr ⟨.inl rfl, fun _ => rfl⟩
  | tbld8 => exact .inr ⟨.inr (.inl rfl), fun _ => rfl⟩
  | tbld16 => exact .inr ⟨.inr (.inr rfl), fun _ => rfl⟩

/-- A meaning called on an idle BDX answers a next state: a start step never stops the machine (R280, R294). -/
theorem exec_idle {i : Instr} {s : State} (h : s.busy = false) :
    exec i s = .next (match i with
      | .tbld4 | .tbld8 | .tbld16 => { buildTables (tableNamed i) s with busy := true }
      | _ => startExpand i s) := by
  cases i <;>
    simp [exec, execXscl, execXw8, execXw16, execXw32, execXw64, execXben, execXbenk, execXlau3, execXlau4, execXlut4,
      execXlut8, execXlut16, execXvzip, execXvtbl, execTbld4, execTbld8, execTbld16, runExpand, runTableBuild, h]

end Sys2Proof.Machine
end

