-- ==== Sys2Proof/Laws/Memory.lean ====
section
/-! SUPPORT. The laws of the data memory: every operation keeps the canonical form, a read after a write gives the value
written, and a write leaves every other byte alone. -/

namespace Sys2Proof.Machine

theorem memory_wfFrom_nil (lo : Nat) : Memory.wfFrom lo [] = true := rfl

theorem memory_wfFrom_cons (lo a : Nat) (v : Byte) (m : Memory) :
    Memory.wfFrom lo ((a, v) :: m) = true ↔
      lo ≤ a ∧ a < Config.addressSpace ∧ v ≠ Memory.blank ∧ Memory.wfFrom (a + 1) m = true := by
  simp [Memory.wfFrom, and_assoc]

/-- A canonical memory from `hi` on is one from any lower address on. -/
theorem memory_wfFrom_mono {lo hi : Nat} (h : lo ≤ hi) {m : Memory} (hm : Memory.wfFrom hi m = true) :
    Memory.wfFrom lo m = true := by
  cases m with
  | nil => rfl
  | cons c m =>
    obtain ⟨h1, h2, h3, h4⟩ := (memory_wfFrom_cons hi c.1 c.2 m).1 hm
    exact (memory_wfFrom_cons lo c.1 c.2 m).2 ⟨h.trans h1, h2, h3, h4⟩

/-- An address below the first one listed reads as `Memory.blank`. -/
theorem memory_read_below {lo : Nat} {m : Memory} (hm : Memory.wfFrom lo m = true) {a : Nat} (h : a < lo) :
    m.read a = Memory.blank := by
  induction m generalizing lo with
  | nil => rfl
  | cons c m ih =>
    obtain ⟨h1, -, -, h4⟩ := (memory_wfFrom_cons lo c.1 c.2 m).1 hm
    have : a ≠ c.1 := by omega
    simp only [Memory.read, this, if_false]
    exact ih h4 (by omega)

/-- A write keeps the canonical form. -/
theorem memory_wfFrom_write {lo : Nat} {m : Memory} (hm : Memory.wfFrom lo m = true) {a : Nat} (hlo : lo ≤ a)
    (ha : a < Config.addressSpace) (v : Byte) : Memory.wfFrom lo (m.write a v) = true := by
  induction m generalizing lo with
  | nil =>
    unfold Memory.write
    split
    · rfl
    · exact (memory_wfFrom_cons _ _ _ _).2 ⟨hlo, ha, ‹_›, rfl⟩
  | cons c m ih =>
    obtain ⟨b, w⟩ := c
    obtain ⟨h1, h2, h3, h4⟩ := (memory_wfFrom_cons lo b w m).1 hm
    unfold Memory.write
    split
    · split
      · exact hm
      · exact (memory_wfFrom_cons _ _ _ _).2 ⟨hlo, ha, ‹_›, (memory_wfFrom_cons _ _ _ _).2 ⟨by omega, h2, h3, h4⟩⟩
    · split
      · split
        · exact memory_wfFrom_mono (by omega) h4
        · exact (memory_wfFrom_cons _ _ _ _).2 ⟨hlo, ha, ‹_›, by subst_vars; exact h4⟩
      · exact (memory_wfFrom_cons _ _ _ _).2 ⟨h1, h2, h3, ih h4 (by omega)⟩

/-- A write of a byte of the address space keeps the canonical form. -/
theorem memory_wf_write {m : Memory} (hm : m.wf = true) {a : Nat} (ha : a < Config.addressSpace) (v : Byte) :
    (m.write a v).wf = true :=
  memory_wfFrom_write hm (Nat.zero_le a) ha v

/-- Writes within the address space keep the canonical form. -/
theorem memory_wf_writeBytes {m : Memory} (hm : m.wf = true) (bs : List Byte) {a : Nat}
    (ha : a + bs.length ≤ Config.addressSpace) : (m.writeBytes a bs).wf = true := by
  induction bs generalizing m a with
  | nil => exact hm
  | cons v bs ih =>
    simp only [List.length_cons] at ha
    exact ih (memory_wf_write hm (by omega) v) (by omega)

/-- In a canonical memory a read after a write gives the value written, and any other byte is as it was. -/
theorem memory_read_write_from {lo : Nat} {m : Memory} (hm : Memory.wfFrom lo m = true) (a : Nat) (v : Byte) (b : Nat) :
    (m.write a v).read b = if b = a then v else m.read b := by
  induction m generalizing lo with
  | nil =>
    unfold Memory.write
    split <;> split <;> simp_all [Memory.read]
  | cons c m ih =>
    obtain ⟨x, w⟩ := c
    obtain ⟨h1, h2, h3, h4⟩ := (memory_wfFrom_cons lo x w m).1 hm
    unfold Memory.write
    by_cases hax : a < x
    · have hb : (b = a → Memory.read ((x, w) :: m) b = Memory.blank) := fun h =>
        memory_read_below ((memory_wfFrom_cons x x w m).2 ⟨le_refl x, h2, h3, h4⟩) (by omega)
      rw [if_pos hax]
      split
      · split <;> simp_all
      · rw [Memory.read]
    · rw [if_neg hax]
      by_cases hxa : a = x
      · subst hxa
        have hb : Memory.read m a = Memory.blank := memory_read_below h4 (Nat.lt_succ_self a)
        rw [if_pos rfl]
        by_cases hba : b = a <;> by_cases hv : v = Memory.blank <;> simp [Memory.read, hba, hv, hb]
      · rw [if_neg hxa, Memory.read, ih h4, Memory.read]
        by_cases hbx : b = x
        · have : b ≠ a := by omega
          simp [hbx, show x ≠ a by omega]
        · simp [hbx]

/-- In a canonical memory a read after a write gives the value written, and any other byte is as it was. -/
theorem memory_read_write {m : Memory} (hm : m.wf = true) (a : Nat) (v : Byte) (b : Nat) :
    (m.write a v).read b = if b = a then v else m.read b :=
  memory_read_write_from hm a v b

/-- What a run of writes leaves: the bytes of the list at their places, and every other byte as it was. -/
theorem memory_read_writeBytes {m : Memory} (hm : m.wf = true) (bs : List Byte) {a : Nat}
    (ha : a + bs.length ≤ Config.addressSpace) (b : Nat) :
    (m.writeBytes a bs).read b =
      if a ≤ b ∧ b < a + bs.length then bs.getD (b - a) 0 else m.read b := by
  induction bs generalizing m a with
  | nil => rw [if_neg (by simp)]; rfl
  | cons v bs ih =>
    simp only [List.length_cons] at ha
    rw [Memory.writeBytes, ih (memory_wf_write hm (by omega) v) (by omega), memory_read_write hm]
    by_cases h1 : a + 1 ≤ b ∧ b < a + 1 + bs.length
    · obtain ⟨k, rfl⟩ : ∃ k, b = a + 1 + k := ⟨b - (a + 1), by omega⟩
      simp only [List.length_cons]
      rw [if_pos h1, if_pos (by omega), show a + 1 + k - (a + 1) = k by omega, show a + 1 + k - a = k + 1 by omega]
      rfl
    · by_cases h2 : b = a
      · subst h2
        simp
      · simp only [List.length_cons]
        rw [if_neg h1, if_neg h2, if_neg (by omega)]

/-- Two runs of writes one after the other are one (the two `VST` of a body step, R234 and R237). -/
theorem memory_writeBytes_append (m : Memory) (a : Nat) (as bs : List Byte) :
    m.writeBytes a (as ++ bs) = (m.writeBytes a as).writeBytes (a + as.length) bs := by
  induction as generalizing m a with
  | nil => rfl
  | cons v as ih => simp [Memory.writeBytes, ih, Nat.add_assoc, Nat.add_comm]

@[simp] theorem memory_readBytes_length (m : Memory) (a n : Nat) : (m.readBytes a n).length = n := by
  simp [Memory.readBytes]

/-- Byte `j` of a run of reads is the byte at `a + j`. -/
theorem memory_readBytes_getElem (m : Memory) (a n j : Nat) (h : j < (m.readBytes a n).length) :
    (m.readBytes a n)[j] = m.read (a + j) := by
  simp [Memory.readBytes]

end Sys2Proof.Machine
end

