-- ==== Sys2Proof/Laws/PerInstr.lean ====
section
/-! SUPPORT. Statements made for every command, one lemma per constructor of `Instr`. -/

namespace Sys2Proof.Laws

open Sys2Proof.Machine

/-- The opcode of each command (R96). -/
def opcode : Instr → BitVec 8
  | .xscl _ => 0x01
  | .xw8 _ => 0x02
  | .xw16 _ => 0x03
  | .xw32 _ => 0x04
  | .xw64 _ => 0x05
  | .xben _ => 0x06
  | .xbenk _ => 0x07
  | .xlau3 _ => 0x08
  | .xlau4 _ => 0x09
  | .xlut4 _ => 0x0A
  | .xlut8 _ => 0x0B
  | .xlut16 _ => 0x0C
  | .xvzip _ _ => 0x0D
  | .xvtbl _ _ => 0x0E
  | .tbld4 => 0x10
  | .tbld8 => 0x11
  | .tbld16 => 0x12

/-- The bits of a command word, field by field (R91). -/
theorem getLsbD_commandWord (nch : BitVec 16) (vls : BitVec 2) (op : BitVec 8) (j : Nat) :
    (commandWord nch vls op).getLsbD j =
      if j < 8 then op.getLsbD j else if j < 10 then vls.getLsbD (j - 8)
      else if j < 16 then false else nch.getLsbD (j - 16) := by
  show BitVec.getLsbD (w := 16 + (6 + (2 + 8))) (nch ++ (0#6 ++ (vls ++ op))) j = _
  simp only [BitVec.getLsbD_append]
  by_cases h8 : j < 8
  · simp [h8, show j < 10 by omega, show j < 16 by omega]
  · by_cases h10 : j < 10
    · simp [h8, h10, show j < 16 by omega]
    · by_cases h16 : j < 16 <;> simp [h8, h10, h16]

/-- `OP` of a command word. -/
theorem opField_commandWord (nch : BitVec 16) (vls : BitVec 2) (op : BitVec 8) :
    opField (commandWord nch vls op) = op := by
  ext j hj
  simp [opField, getLsbD_commandWord, hj]

/-- `VLS` of a command word. -/
theorem vlsField_commandWord (nch : BitVec 16) (vls : BitVec 2) (op : BitVec 8) :
    vlsField (commandWord nch vls op) = vls := by
  ext j hj
  simp [vlsField, getLsbD_commandWord, show 8 + j < 10 by omega, hj]

/-- `RSV` of a command word. -/
theorem rsvField_commandWord (nch : BitVec 16) (vls : BitVec 2) (op : BitVec 8) :
    rsvField (commandWord nch vls op) = 0 := by
  ext j hj
  simp [rsvField, getLsbD_commandWord, show ¬ 10 + j < 8 by omega, show 10 + j < 16 by omega]

/-- `NCH` of a command word. -/
theorem nchField_commandWord (nch : BitVec 16) (vls : BitVec 2) (op : BitVec 8) :
    nchField (commandWord nch vls op) = nch := by
  ext j hj
  simp [nchField, getLsbD_commandWord, show ¬ 16 + j < 8 by omega, show ¬ 16 + j < 10 by omega, hj]

/-- The fields of a command's word are what R91 and R96 say of its row: its opcode, `RSV = 0`, its `VLS` where it has one and 0
where it has none, and its chunk count. -/
def EncodesItsFields.Statement (i : Instr) : Prop :=
  opField (encode i) = opcode i ∧ rsvField (encode i) = 0 ∧ vlsField (encode i) = (vectorSelect i).getD 0 ∧
    (nchField (encode i)).toNat = chunkCount i

theorem encodesItsFields_of_word {i : Instr} {nch : BitVec 16} {vls : BitVec 2} {op : BitVec 8}
    (hw : encode i = commandWord nch vls op) (hop : op = opcode i) (hvls : vls = (vectorSelect i).getD 0)
    (hnch : nch.toNat = chunkCount i) : EncodesItsFields.Statement i := by
  refine ⟨?_, ?_, ?_, ?_⟩
  · rw [hw, opField_commandWord, hop]
  · rw [hw, rsvField_commandWord]
  · rw [hw, vlsField_commandWord, hvls]
  · rw [hw, nchField_commandWord, hnch]

theorem EncodesItsFields.xscl (nch : BitVec 16) : EncodesItsFields.Statement (.xscl nch) :=
  encodesItsFields_of_word rfl rfl rfl rfl

theorem EncodesItsFields.xw8 (nch : BitVec 16) : EncodesItsFields.Statement (.xw8 nch) :=
  encodesItsFields_of_word rfl rfl rfl rfl

theorem EncodesItsFields.xw16 (nch : BitVec 16) : EncodesItsFields.Statement (.xw16 nch) :=
  encodesItsFields_of_word rfl rfl rfl rfl

theorem EncodesItsFields.xw32 (nch : BitVec 16) : EncodesItsFields.Statement (.xw32 nch) :=
  encodesItsFields_of_word rfl rfl rfl rfl

theorem EncodesItsFields.xw64 (nch : BitVec 16) : EncodesItsFields.Statement (.xw64 nch) :=
  encodesItsFields_of_word rfl rfl rfl rfl

theorem EncodesItsFields.xben (nch : BitVec 16) : EncodesItsFields.Statement (.xben nch) :=
  encodesItsFields_of_word rfl rfl rfl rfl

theorem EncodesItsFields.xbenk (nch : BitVec 16) : EncodesItsFields.Statement (.xbenk nch) :=
  encodesItsFields_of_word rfl rfl rfl rfl

theorem EncodesItsFields.xlau3 (nch : BitVec 16) : EncodesItsFields.Statement (.xlau3 nch) :=
  encodesItsFields_of_word rfl rfl rfl rfl

theorem EncodesItsFields.xlau4 (nch : BitVec 16) : EncodesItsFields.Statement (.xlau4 nch) :=
  encodesItsFields_of_word rfl rfl rfl rfl

theorem EncodesItsFields.xlut4 (nch : BitVec 16) : EncodesItsFields.Statement (.xlut4 nch) :=
  encodesItsFields_of_word rfl rfl rfl rfl

theorem EncodesItsFields.xlut8 (nch : BitVec 16) : EncodesItsFields.Statement (.xlut8 nch) :=
  encodesItsFields_of_word rfl rfl rfl rfl

theorem EncodesItsFields.xlut16 (nch : BitVec 16) : EncodesItsFields.Statement (.xlut16 nch) :=
  encodesItsFields_of_word rfl rfl rfl rfl

theorem EncodesItsFields.xvzip (vls : BitVec 2) (nch : BitVec 16) : EncodesItsFields.Statement (.xvzip vls nch) :=
  encodesItsFields_of_word rfl rfl rfl rfl

theorem EncodesItsFields.xvtbl (vls : BitVec 2) (nch : BitVec 16) : EncodesItsFields.Statement (.xvtbl vls nch) :=
  encodesItsFields_of_word rfl rfl rfl rfl

theorem EncodesItsFields.tbld4 : EncodesItsFields.Statement .tbld4 :=
  encodesItsFields_of_word rfl rfl rfl rfl

theorem EncodesItsFields.tbld8 : EncodesItsFields.Statement .tbld8 :=
  encodesItsFields_of_word rfl rfl rfl rfl

theorem EncodesItsFields.tbld16 : EncodesItsFields.Statement .tbld16 :=
  encodesItsFields_of_word rfl rfl rfl rfl

end Sys2Proof.Laws
end

