-- ==== Sys2Proof/Laws/Step.lean ====
section
/-! SUPPORT. What one step of the machine can do, event by event: later proofs cite these and do not unfold the step. -/

namespace Sys2Proof.Machine

/-- The step with an empty script. -/
theorem step_nil {s : State} (h : s.events = []) : step s = freeTurn s := by
  simp [step, h]

/-- The step with an event at the head of the script. -/
theorem step_cons {s : State} {e : Event} {rest : List Event} (h : s.events = e :: rest) :
    step s = takeEvent e rest s := by
  simp [step, h]

/-- A write of `CMD` on an idle BDX answers a next state (R294): the report of `F_ILLEGAL`, or what the command's meaning
answers. -/
theorem startCommand_idle {w : Word} {s : State} (h : s.busy = false) :
    (∃ e, decode w = .error e ∧ startCommand w s = .next (raiseFault .illegal w (beginCommand w s))) ∨
    (∃ i, decode w = .ok i ∧ startCommand w s = exec i (beginCommand w s) ∧
      ∃ t, exec i (beginCommand w s) = .next t) := by
  unfold startCommand
  cases hd : decode w with
  | error e => exact .inl ⟨e, rfl, rfl⟩
  | ok i => exact .inr ⟨i, rfl, rfl, _, exec_idle (by simpa using h)⟩

/-- What a register write does, where it answers a next state. -/
theorem writeReg_next {r : Reg} {v : Word} {s t : State} (h : writeReg r v s = .next t) :
    (s.busy = true ∧ t = writeWhileBusy s) ∨
    (s.busy = false ∧
      ((r = .src ∧ t = { s with src := v }) ∨ (r = .dst ∧ t = { s with dst := v }) ∨
       (r = .len ∧ t = { s with len := v }) ∨ (r = .cmd ∧ startCommand v s = .next t) ∨
       ((r = .status ∨ r = .finfo ∨ r = .cap ∨ r = .reserved7) ∧ t = s))) := by
  unfold writeReg at h
  split at h
  · exact .inl ⟨‹_›, by cases h; rfl⟩
  · refine .inr ⟨by simpa using ‹¬s.busy = true›, ?_⟩
    cases r <;> first | (cases h; simp) | simpa using h

/-- A turn of BDX, where it answers a next state. -/
theorem bdxTurn_next {p : Nat} {s t : State} (h : bdxTurn p s = .next t) :
    (s.busy = false ∧ t = s) ∨
    (s.busy = true ∧ ∃ i, decode s.cmd = .ok i ∧ exec i { s with pick := p } = .next t) := by
  unfold bdxTurn at h
  split at h
  · split at h
    · exact .inr ⟨‹_›, _, ‹_›, h⟩
    · cases h
  · exact .inl ⟨by simpa using ‹¬s.busy = true›, by cases h; rfl⟩

/-- A turn of BDX that no event fixes, where it answers a next state: nothing when idle, else a turn with the free choice. -/
theorem freeTurn_next {s t : State} (h : freeTurn s = .next t) :
    (s.busy = false ∧ t = s) ∨
    (s.busy = true ∧ bdxTurn (Config.freePick s.tick) { s with tick := s.tick + 1 } = .next t) := by
  unfold freeTurn at h
  split at h
  · exact .inr ⟨‹_›, h⟩
  · exact .inl ⟨by simpa using ‹¬s.busy = true›, by cases h; rfl⟩

/-- Everything a step that answers a next state can have been. -/
theorem step_next {s t : State} (h : step s = .next t) :
    (s.events = [] ∧ freeTurn s = .next t) ∨
    ∃ e rest, s.events = e :: rest ∧
      ((∃ r v, e = .writeReg r v ∧ writeReg r v { s with events := rest } = .next t) ∨
       (∃ r, e = .readReg r ∧ t = observe (.reg r (readReg s r)) { s with events := rest }) ∨
       (∃ a v, e = .memWrite a v ∧ memOk s.params a.toNat = true ∧
          t = { s with events := rest, mem := s.mem.write a.toNat v }) ∨
       (∃ a, e = .memRead a ∧ memOk s.params a.toNat = true ∧
          t = observe (.mem a (s.mem.read a.toNat)) { s with events := rest }) ∨
       (e = .wait ∧ s.busy = true ∧ freeTurn s = .next t) ∨
       (e = .wait ∧ s.busy = false ∧ t = observe (.reg .status (statusWord s)) { s with events := rest }) ∨
       (e = .reset ∧ t = applyReset { s with events := rest }) ∨
       (∃ p, e = .bdx p ∧ bdxTurn p { s with events := rest } = .next t)) := by
  unfold step at h
  split at h
  · exact .inl ⟨‹_›, h⟩
  · rename_i e rest he
    refine .inr ⟨e, rest, he, ?_⟩
    cases e with
    | writeReg r v => exact .inl ⟨r, v, rfl, h⟩
    | readReg r => exact .inr (.inl ⟨r, rfl, by cases h; rfl⟩)
    | memWrite a v =>
      simp only [takeEvent, hostMemWrite] at h
      split at h
      · exact .inr (.inr (.inl ⟨a, v, rfl, ‹_›, by cases h; rfl⟩))
      · cases h
    | memRead a =>
      simp only [takeEvent, hostMemRead] at h
      split at h
      · exact .inr (.inr (.inr (.inl ⟨a, rfl, ‹_›, by cases h; rfl⟩)))
      · cases h
    | wait =>
      simp only [takeEvent, hostWait] at h
      split at h
      · exact .inr (.inr (.inr (.inr (.inl ⟨rfl, ‹_›, h⟩))))
      · exact .inr (.inr (.inr (.inr (.inr (.inl ⟨rfl, by simpa using ‹¬s.busy = true›, by cases h; rfl⟩)))))
    | reset => exact .inr (.inr (.inr (.inr (.inr (.inr (.inl ⟨rfl, by cases h; rfl⟩))))))
    | bdx p => exact .inr (.inr (.inr (.inr (.inr (.inr (.inr ⟨p, rfl, h⟩))))))

end Sys2Proof.Machine
end

