-- ==== Sys2Proof/Laws/Tables.lean ====
section
/-! SUPPORT. What the table operations can do (42_lookup_table.md R192, R194): read out of a filled table, and what a build
leaves. -/

namespace Sys2Proof.Machine

/-- An entry of a list filled from its index. -/
theorem getD_map_range {α : Type} (f : Nat → α) {n k : Nat} (h : k < n) (d : α) :
    ((List.range n).map f).getD k d = f k := by
  simp [List.getD_eq_getElem?_getD, h]

/-- Entry `k` of a `T4` filled by `f`. -/
theorem readT4_of_fill {s : State} {f : Nat → BitVec 8} (h : s.t4 = (List.range 16).map f) (k : BitVec 4) :
    readT4 s k = f k.toNat := by
  rw [readT4, h, getD_map_range f k.isLt]

/-- Entry `k` of a `T8` filled by `f`. -/
theorem readT8_of_fill {s : State} {f : Nat → BitVec 16} (h : s.t8 = (List.range 256).map f) (k : BitVec 8) :
    readT8 s k = f k.toNat := by
  rw [readT8, h, getD_map_range f k.isLt]

/-- Entry `k` of a `T16` filled by `f`. -/
theorem readT16_of_fill {s : State} {f : Nat → BitVec 32} (h : s.t16 = (List.range 65536).map f) (k : BitVec 16) :
    readT16 s k = f k.toNat := by
  rw [readT16, h, getD_map_range f k.isLt]

/-- `build4` leaves a built table alone, and fills one that is not built. -/
theorem build4_cases (s : State) :
    (s.tv4 = true ∧ build4 s = s) ∨ (s.tv4 = false ∧ build4 s = { s with t4 := entries4, tv4 := true }) := by
  cases h : s.tv4 <;> simp [build4, h]

/-- After `build8` the table `T4` is built, and `T8` is as it was if built, filled from `T4` if not. -/
theorem build8_cases (s : State) :
    (s.tv8 = true ∧ build8 s = build4 s) ∨
    (s.tv8 = false ∧ build8 s = { build4 s with t8 := entries8 (build4 s), tv8 := true }) := by
  cases h : s.tv8 <;> simp [build8, h]

/-- After `build16` the tables `T4` and `T8` are built, and `T16` is as it was if built, filled from `T8` if not. -/
theorem build16_cases (s : State) :
    (s.tv16 = true ∧ build16 s = build8 s) ∨
    (s.tv16 = false ∧ build16 s = { build8 s with t16 := entries16 (build8 s), tv16 := true }) := by
  cases h : s.tv16 <;> simp [build16, h]

/-- A build touches nothing but the tables and their valid bits. -/
theorem buildTables_frame (n : Option TableName) (s : State) :
    buildTables n s = { s with
      tv4 := (buildTables n s).tv4, tv8 := (buildTables n s).tv8, tv16 := (buildTables n s).tv16
      t4 := (buildTables n s).t4, t8 := (buildTables n s).t8, t16 := (buildTables n s).t16 } := by
  have h4 : build4 s = { s with tv4 := (build4 s).tv4, t4 := (build4 s).t4 } := by
    rcases build4_cases s with ⟨_, h⟩ | ⟨_, h⟩ <;> rw [h]
  have h8 : build8 s = { s with
      tv4 := (build8 s).tv4, tv8 := (build8 s).tv8, t4 := (build8 s).t4, t8 := (build8 s).t8 } := by
    rcases build8_cases s with ⟨_, h⟩ | ⟨_, h⟩ <;> rw [h, h4]
  have h16 : build16 s = { s with
      tv4 := (build16 s).tv4, tv8 := (build16 s).tv8, tv16 := (build16 s).tv16
      t4 := (build16 s).t4, t8 := (build16 s).t8, t16 := (build16 s).t16 } := by
    rcases build16_cases s with ⟨_, h⟩ | ⟨_, h⟩ <;> rw [h, h8]
  match n with
  | none => rfl
  | some .t4 => rw [show buildTables (some .t4) s = build4 s from rfl, h4]
  | some .t8 => rw [show buildTables (some .t8) s = build8 s from rfl, h8]
  | some .t16 => rw [show buildTables (some .t16) s = build16 s from rfl, h16]

/-- Every chunk begins with a group (R126, R231). -/
theorem atGroupBoundary_zero (i : Instr) (sk len : Nat) : atGroupBoundary i sk len 0 := by
  unfold atGroupBoundary
  split
  · exact Nat.dvd_zero _
  · exact .inr (.inl (by rw [Nat.zero_sub]; exact Nat.dvd_zero _))

end Sys2Proof.Machine
end

