-- ==== Sys2Proof/Laws/Vector.lean ====
section
/-! SUPPORT. Where rules R226 and R228 and decisions D23 and D24 read otherwise, no command shows the difference (log entry
14): on what a command gives them, the lane operations are the same under both readings. -/

namespace Sys2Proof.Machine

/-- On equal operands the bit interleave is `dbl_8` under both readings (R228, D24). -/
theorem bzip_self (r : Config.Reading) (v : Byte) : bzip r v v = dbl 16 v := by
  cases r
  · exact BitVec.or_comm ..
  · rfl

/-- On equal operands the lanes are the same under both readings. -/
theorem bzipLanes_self (r r' : Config.Reading) (v : List Byte) : bzipLanes r v v = bzipLanes r' v v := by
  induction v with
  | nil => rfl
  | cons b v ih => rw [bzipLanes, bzipLanes, ih, bzip_self r, bzip_self r']

/-- The body step of XVZIP (R234) is the same under both readings. -/
theorem bodyXvzip_reading (r r' : Config.Reading) (nb : Nat) (va : List Byte) :
    bodyXvzip r nb va = bodyXvzip r' nb va := by
  simp only [bodyXvzip, vbziplo, vbziphi, bzipLanes_self r r']

/-- The start step of XVTBL loads `VT` with its first 16 lanes repeated (R236). -/
theorem vtLane_loadVT (vls : BitVec 2) (nch : BitVec 16) (s : State) {j : Nat} (hj : j < laneCount vls) :
    vtLane (loadVT (.xvtbl vls nch) s) j = readT4 s (BitVec.ofNat 4 j) :=
  getD_map_range (fun j => readT4 s (BitVec.ofNat 4 j)) hj _

/-- While XVTBL runs, every lane of `VT` is the lane of the same number modulo 16 (R38). -/
theorem vtLane_repeats {vls : BitVec 2} {nch : BitVec 16} {s : State} (hr : Running (.xvtbl vls nch) s) {k : Nat}
    (hk : k < laneCount vls) : vtLane s k = vtLane s (k % 16) := by
  rw [hr.vtLoaded vls nch rfl k hk, hr.vtLoaded vls nch rfl _ (Nat.lt_of_le_of_lt (Nat.mod_le k 16) hk),
    show BitVec.ofNat 4 (k % 16) = BitVec.ofNat 4 k from BitVec.eq_of_toNat_eq (by simp)]

/-- On a whole number of blocks, where `VT` repeats its first 16 lanes, the lookup reads lanes 0 to 15 under both readings. -/
theorem vtbl16_eq {s : State} {idx : List Byte} (hb : 16 ∣ idx.length)
    (h : ∀ k < idx.length, vtLane s k = vtLane s (k % 16)) :
    vtbl16 s idx = idx.map fun x => vtLane s (lowNibble x).toNat := by
  have hk : ∀ (r : Config.Reading) (j n : Nat), j < idx.length → n < 16 →
      vtLane s (lookupLane r j n) = vtLane s n := fun r j n hj hn => by
    cases r
    · rfl
    · rw [lookupLane, h _ (by omega), Nat.mul_add_mod_self_right, Nat.mod_eq_of_lt hn]
  refine List.ext_getElem (by simp [vtbl16]) fun j hj _ => ?_
  simp only [vtbl16, List.getElem_mapIdx, List.getElem_map]
  exact hk _ _ _ (by simpa [vtbl16] using hj) (lowNibble _).isLt

/-- The body step of a running XVTBL (R237) is the same under both readings. -/
theorem bodyXvtbl_reading {vls : BitVec 2} {nch : BitVec 16} {s : State} (hr : Running (.xvtbl vls nch) s)
    {va : List Byte} (hv : va.length = laneCount vls) (r : Config.Reading) :
    bodyXvtbl (laneCount vls) { s with params := { s.params with lookupReading := r } } va =
      bodyXvtbl (laneCount vls) s va := by
  have hd : 16 ∣ laneCount vls := Nat.dvd_mul_right 16 _
  have hi : ∀ idx : List Byte, idx.length = laneCount vls →
      vtbl16 { s with params := { s.params with lookupReading := r } } idx = vtbl16 s idx := fun idx hl => by
    have h : ∀ k < idx.length, vtLane s k = vtLane s (k % 16) := fun k hk => vtLane_repeats hr (hl ▸ hk)
    rw [vtbl16_eq (hl ▸ hd) h, vtbl16_eq (s := { s with params := { s.params with lookupReading := r } }) (hl ▸ hd) h]
    rfl
  simp only [bodyXvtbl]
  rw [hi (vandi va 0x0F) (by simpa [vandi] using hv), hi (vshri va 4) (by simpa [vshri] using hv)]

end Sys2Proof.Machine
end

