-- ==== Sys2Proof/Tests/Slice0.lean ====
section
/-! SUPPORT. The model's own tests, each with its expected result from the spec (the section of 95_test_vectors.md, or the
rule, is named), and for every statement of Certificates/Slice0/Obligations.lean that has hypotheses one theorem with a
concrete state and operands that meet them. -/

namespace Sys2Proof.Tests

-- One theorem after the other: elaborated side by side, they ask for more threads than the memory limit allows.
set_option Elab.async false

open Sys2Proof Sys2Proof.Machine

/-! ## Helpers -/

/-- Does the outcome go on? -/
def goesOn : Host.Outcome State Fault Refusal → Bool
  | .next _ => true
  | .fault _ => false
  | .refused _ => false

/-- The next state, or the reset state where there is none. -/
def after : Host.Outcome State Fault Refusal → State
  | .next t => t
  | .fault _ => State.reset
  | .refused _ => State.reset

/-- An outcome that goes on is a next state. -/
theorem next_of_goesOn {o : Host.Outcome State Fault Refusal} (h : goesOn o = true) : o = .next (after o) := by
  cases o <;> first | rfl | cases h

/-- An idle BDX with operands. -/
def idle (src dst len : Word) : State := { State.reset with src := src, dst := dst, len := len }

/-- The state after `k` steps from `s` under a script. -/
def runFrom (s : State) (k : Nat) (es : List Event) : State :=
  after (Host.Core.run Sys2Proof.core k { s with events := es })

/-- `STATUS` and `FINFO` right after the start step of the word `w` on an idle BDX. -/
def startReport (s : State) (w : Word) : Word × Word :=
  (statusWord (runFrom s 1 [.writeReg .cmd w]), (runFrom s 1 [.writeReg .cmd w]).finfo)

/-- The bytes at `a` after the start step of `w` and the turns of BDX named, from an idle BDX with the bytes `bs` at 0x1000,
`DST = 0x2000`, `LEN` the number of bytes. -/
def output (w : Word) (bs : List Byte) (turns : List Nat) (n : Nat) : List Byte :=
  (runFrom { idle 0x1000 0x2000 (BitVec.ofNat 32 bs.length) with mem := Memory.writeBytes [] 0x1000 bs }
    (turns.length + 1) (.writeReg .cmd w :: turns.map .bdx)).mem.readBytes 0x2000 n

/-! ## Syntax: every check of `wellFormed` refuses an ill-formed term (R96) -/

theorem test_wellFormed_refuses_no_chunk :
    [Instr.xscl 0, .xw8 0, .xw16 0, .xw32 0, .xw64 0, .xben 0, .xbenk 0, .xlau3 0, .xlau4 0, .xlut4 0, .xlut8 0,
      .xlut16 0, .xvzip 0 0, .xvtbl 2 0].map Instr.wellFormed = List.replicate 14 false := by decide

theorem test_wellFormed_refuses_vector_length_three :
    [Instr.xvzip 3 1, .xvtbl 3 1].map Instr.wellFormed = [false, false] := by decide

theorem test_wellFormed_admits :
    [Instr.xscl 1, .xw64 0xFFFF, .xvzip 2 1, .xvtbl 0 0x8000, .tbld4, .tbld8, .tbld16].map Instr.wellFormed =
      List.replicate 7 true := by decide

/-! ## Decoding: words written out from R91 and R96 as `NCH _ RSV _ VLS _ OP` -/

theorem test_decode_xscl : decode 0b0000000000000001_000000_00_00000001#32 = .ok (.xscl 1) := by decide
theorem test_decode_xw8 : decode 0b0000000000000011_000000_00_00000010#32 = .ok (.xw8 3) := by decide
theorem test_decode_xw16 : decode 0b0000000100000000_000000_00_00000011#32 = .ok (.xw16 0x100) := by decide
theorem test_decode_xw32 : decode 0b0000000000010000_000000_00_00000100#32 = .ok (.xw32 16) := by decide
theorem test_decode_xw64 : decode 0b1111111111111111_000000_00_00000101#32 = .ok (.xw64 0xFFFF) := by decide
theorem test_decode_xben : decode 0b0000000000000001_000000_00_00000110#32 = .ok (.xben 1) := by decide
theorem test_decode_xbenk : decode 0b0000000000000010_000000_00_00000111#32 = .ok (.xbenk 2) := by decide
theorem test_decode_xlau3 : decode 0b1000000000000000_000000_00_00001000#32 = .ok (.xlau3 0x8000) := by decide
theorem test_decode_xlau4 : decode 0b0000000000000101_000000_00_00001001#32 = .ok (.xlau4 5) := by decide
theorem test_decode_xlut4 : decode 0b0000000000000001_000000_00_00001010#32 = .ok (.xlut4 1) := by decide
theorem test_decode_xlut8 : decode 0b0000000000000100_000000_00_00001011#32 = .ok (.xlut8 4) := by decide
theorem test_decode_xlut16 : decode 0b0000000000000011_000000_00_00001100#32 = .ok (.xlut16 3) := by decide
theorem test_decode_xvzip : decode 0b0000000000000001_000000_10_00001101#32 = .ok (.xvzip 2 1) := by decide
theorem test_decode_xvtbl : decode 0b0000000000001000_000000_01_00001110#32 = .ok (.xvtbl 1 8) := by decide
theorem test_decode_tbld4 : decode 0b0000000000000000_000000_00_00010000#32 = .ok .tbld4 := by decide
theorem test_decode_tbld8 : decode 0b0000000000000000_000000_00_00010001#32 = .ok .tbld8 := by decide
theorem test_decode_tbld16 : decode 0b0000000000000000_000000_00_00010010#32 = .ok .tbld16 := by decide

/-- 95_test_vectors.md 2.8: the illegal words of the table, with the test of R97 that each fails. -/
theorem test_decode_rejects :
    [0x00000000#32, 0xFFFFFFFF#32, 0x00010000#32, 0x0001000F#32, 0x00010013#32, 0x00000004#32, 0x0000000D#32,
      0x00010104#32, 0x0001030D#32, 0x0001040D#32, 0x00018004#32, 0x00010010#32, 0x00000110#32].map decode =
    [.error .unassignedOpcode, .error .unassignedOpcode, .error .unassignedOpcode, .error .unassignedOpcode,
      .error .unassignedOpcode, .error .badChunkCount, .error .badChunkCount, .error .badVectorLength,
      .error .badVectorLength, .error .reservedBits, .error .reservedBits, .error .badChunkCount,
      .error .badVectorLength] := by decide

/-- R102: the examples, as text and as words. -/
theorem test_encode_examples :
    [Instr.xw32 1, .xlut8 4, .xvtbl 1 8, .xvzip 0 1, .tbld16].map encode =
      [0x00010004#32, 0x0004000B#32, 0x0008010E#32, 0x0001000D#32, 0x00000012#32] := by decide

theorem test_assembly_examples :
    [Instr.xw32 1, .xvtbl 1 8, .xvzip 2 1, .tbld16].map assembly =
      ["XW32 1", "XVTBL.256 8", "XVZIP.512 1", "TBLD16"] := by decide

theorem test_decodeTableWord :
    decodeTableWord 32 0x0008010E = some (.xvtbl 1 8) ∧ decodeTableWord 32 0x0001030D = none := by decide

/-! ## The transform and the kernels (95_test_vectors.md 2.1 to 2.6) -/

theorem test_spread_table :
    [0x00#8, 0x01#8, 0x03#8, 0x0F#8, 0x12#8, 0x5F#8, 0x80#8, 0xC3#8, 0xFE#8].map (spread 16) =
      [0x0000#16, 0x0001#16, 0x0005#16, 0x0055#16, 0x0104#16, 0x1155#16, 0x4000#16, 0x5005#16, 0x5554#16] := by
  decide

theorem test_dbl_table :
    [0x00#8, 0x01#8, 0x03#8, 0x0F#8, 0x12#8, 0x5F#8, 0x80#8, 0xC3#8, 0xFE#8].map (dbl 16) =
      [0x0000#16, 0x0003#16, 0x000F#16, 0x00FF#16, 0x030C#16, 0x33FF#16, 0xC000#16, 0xF00F#16, 0xFFFC#16] := by
  decide

/-- The input `IN10` of 2.1 and its expansion `OUT20`. -/
theorem test_expand_ten_bytes :
    expand [0xA0, 0x5F, 0x01, 0x80, 0x12, 0x34, 0x56, 0x78, 0x9A, 0xBC] =
      [0xCC, 0x00, 0x33, 0xFF, 0x00, 0x03, 0xC0, 0x00, 0x03, 0x0C, 0x0F, 0x30, 0x33, 0x3C, 0x3F, 0xC0, 0xC3, 0xCC,
        0xCF, 0xF0] := by decide

/-- 2.2: the last rungs of the ladders. -/
theorem test_ladder_values :
    opt 3 16 0x5F#8 = 0x33FF ∧ opt 4 32 0xA05F#16 = 0xCC0033FF ∧ opt 5 64 0xDEADBEEF#32 = 0xF3FCCCF3CFFCFCFF ∧
    opt 6 128 0x0123456789ABCDEF#64 = 0x00030C0F30333C3FC0C3CCCFF0F3FCFF := by decide +kernel

/-- 2.2: the rungs of the ladder of `DEADBEEF`. -/
theorem test_ladder_rungs :
    ladderStep 0xDEADBEEF#64 16 = 0x0000DEAD0000BEEF ∧ ladderStep 0x0000DEAD0000BEEF#64 8 = 0x00DE00AD00BE00EF ∧
    ladderStep 0x00DE00AD00BE00EF#64 4 = 0x0D0E0A0D0B0E0E0F ∧ ladderStep 0x0D0E0A0D0B0E0E0F#64 2 = 0x3132223123323233 ∧
    ladderStep 0x3132223123323233#64 1 = 0x5154445145545455 := by decide +kernel

/-- 2.3: the `FF` row needs the second product reduced modulo `2^64`. -/
theorem test_mul1_values : [0x01, 0x80, 0xA0, 0x5F, 0xFF].map mul1 = [0x0003#16, 0xC000, 0xCC00, 0x33FF, 0xFFFF] := by
  decide

theorem test_mul2_values :
    [0x0, 0x1, 0x5, 0x8, 0xA, 0xF].map mul2Nibble = [0x00#8, 0x03, 0x33, 0xC0, 0xCC, 0xFF] ∧ mul2 0x5F = 0x33FF := by
  decide

/-- 2.4: the masked squares of `5F`, and the results. -/
theorem test_masked_square_values :
    maskedSquare 0x5F 0x49 0x1041 = 0x1041 ∧ maskedSquare 0x5F 0x92 0x4104 = 0x0104 ∧
    maskedSquare 0x5F 0x24 0x0410 = 0x0010 ∧ maskedSquare 0xFF 0x88 0x4040 = 0x4040 ∧
    [0x01, 0x80, 0xA0, 0x5F, 0xFF].map square3 = [0x0003#16, 0xC000, 0xCC00, 0x33FF, 0xFFFF] ∧
    [0x01, 0x80, 0xA0, 0x5F, 0xFF].map square4 = [0x0003#16, 0xC000, 0xCC00, 0x33FF, 0xFFFF] := by decide

/-- 2.5: the sixteen entries of `T4`. -/
theorem test_table_four :
    entries4 = [0x00, 0x03, 0x0C, 0x0F, 0x30, 0x33, 0x3C, 0x3F, 0xC0, 0xC3, 0xCC, 0xCF, 0xF0, 0xF3, 0xFC, 0xFF] := by
  decide

/-- 2.5: some entries of `T8`, built from reset. -/
theorem test_table_eight :
    [0x00, 0x01, 0x0F, 0x10, 0x5F, 0xA0, 0xFF].map (readT8 (build8 State.reset)) =
      [0x0000, 0x0003, 0x00FF, 0x0300, 0x33FF, 0xCC00, 0xFFFF] := by decide +kernel

/-- 2.6: rows of the head, body and tail table, as `(h, nv)`. -/
theorem test_head_and_body :
    ([(16, 0x100, 0), (16, 0x100, 35), (16, 0x101, 16), (16, 0x101, 31), (16, 0x10F, 17), (16, 0x105, 130),
      (32, 0x10F, 2), (32, 0x10F, 33), (32, 0x105, 130), (64, 0x101, 127), (64, 0x105, 130)] : List (Nat × Nat × Nat)).map
      (fun r => (headLen r.1 r.2.1 r.2.2, bodyCount r.1 r.2.1 r.2.2)) =
    [(0, 0), (0, 2), (15, 0), (15, 1), (1, 1), (11, 7), (2, 0), (17, 0), (27, 3), (63, 1), (59, 1)] := by decide

/-- The vector of 2.6 and its expansion, `VO0` then `VO1`. -/
def va : List Byte := [0x5B, 0x80, 0xA5, 0xCA, 0xEF, 0x14, 0x39, 0x5E, 0x83, 0xA8, 0xCD, 0xF2, 0x17, 0x3C, 0x61, 0x86]

/-- `VO0` and `VO1` of 2.6. -/
def vo : List Byte :=
  [0x33, 0xCF, 0xC0, 0x00, 0xCC, 0x33, 0xF0, 0xCC, 0xFC, 0xFF, 0x03, 0x30, 0x0F, 0xC3, 0x33, 0xFC,
    0xC0, 0x0F, 0xCC, 0xC0, 0xF0, 0xF3, 0xFF, 0x0C, 0x03, 0x3F, 0x0F, 0xF0, 0x3C, 0x03, 0xC0, 0x3C]

/-- 2.6: the intermediate registers of the XVTBL body step. -/
theorem test_vtbl_body_registers :
    vandi va 0x0F = [0x0B, 0x00, 0x05, 0x0A, 0x0F, 0x04, 0x09, 0x0E, 0x03, 0x08, 0x0D, 0x02, 0x07, 0x0C, 0x01, 0x06] ∧
    vshri va 4 = [0x05, 0x08, 0x0A, 0x0C, 0x0E, 0x01, 0x03, 0x05, 0x08, 0x0A, 0x0C, 0x0F, 0x01, 0x03, 0x06, 0x08] ∧
    vtbl16 { State.reset with vt := entries4 } (vandi va 0x0F) =
      [0xCF, 0x00, 0x33, 0xCC, 0xFF, 0x30, 0xC3, 0xFC, 0x0F, 0xC0, 0xF3, 0x0C, 0x3F, 0xF0, 0x03, 0x3C] := by decide

theorem test_body_outputs :
    bodyXvtbl 16 { State.reset with vt := entries4 } va = vo ∧ bodyXvzip .rule 16 va = vo ∧
    bodyXvzip .decision 16 va = vo := by decide +kernel

/-- Operands that no command gives, where the texts differ: R228 and D24 on which operand has the odd bits, R226 and D23 on
which of the lanes `0, 1, …, 31` lane 17 reads for the index 3. -/
theorem test_readings_differ :
    bzip .rule 0xFF 0x00 = 0xAAAA ∧ bzip .decision 0xFF 0x00 = 0x5555 ∧
    lookupLane .rule 17 3 = 3 ∧ lookupLane .decision 17 3 = 19 := by decide

/-! ## One command each: `A0 FF 12 5B 01 80 34 78` at 0x1000, its start step and its first group's step (2.1) -/

/-- The first eight bytes of the input of these tests. -/
def in8 : List Byte := [0xA0, 0xFF, 0x12, 0x5B, 0x01, 0x80, 0x34, 0x78]

theorem test_xscl_step : output 0x00010001 in8 [0] 4 = [0xCC, 0x00, 0, 0] := by decide +kernel
theorem test_xw8_step : output 0x00010002 in8 [0] 4 = [0xCC, 0x00, 0, 0] := by decide +kernel
theorem test_xw16_step : output 0x00010003 in8 [0] 6 = [0xCC, 0x00, 0xFF, 0xFF, 0, 0] := by decide +kernel
theorem test_xw32_step : output 0x00010004 in8 [0] 10 = [0xCC, 0x00, 0xFF, 0xFF, 0x03, 0x0C, 0x33, 0xCF, 0, 0] := by
  decide +kernel
theorem test_xw64_step :
    output 0x00010005 in8 [0] 16 =
      [0xCC, 0x00, 0xFF, 0xFF, 0x03, 0x0C, 0x33, 0xCF, 0x00, 0x03, 0xC0, 0x00, 0x0F, 0x30, 0x3F, 0xC0] := by
  decide +kernel
theorem test_xben_step : output 0x00010006 in8 [0] 4 = [0xCC, 0x00, 0, 0] := by decide +kernel
theorem test_xbenk_step : output 0x00010007 in8 [0] 4 = [0xCC, 0x00, 0, 0] := by decide +kernel
theorem test_xlau3_step : output 0x00010008 in8 [0] 4 = [0xCC, 0x00, 0, 0] := by decide +kernel
theorem test_xlau4_step : output 0x00010009 in8 [0] 4 = [0xCC, 0x00, 0, 0] := by decide +kernel
theorem test_xlut4_step : output 0x0001000A in8 [0] 4 = [0xCC, 0x00, 0, 0] := by decide +kernel
theorem test_xlut8_step : output 0x0001000B in8 [0] 4 = [0xCC, 0x00, 0, 0] := by decide +kernel

/-- XVZIP and XVTBL at the vector of 2.6, its address being aligned: one step writes `VO0` and `VO1`. -/
theorem test_xvzip_step : output 0x0001000D va [0] 32 = vo := by decide +kernel
theorem test_xvtbl_step : output 0x0001000E va [0] 32 = vo := by decide +kernel

/-- A chunk of eight bytes at an aligned address is all tail (P4): one byte a step. -/
theorem test_xvzip_tail_step : output 0x0001000D in8 [0] 4 = [0xCC, 0x00, 0, 0] := by decide +kernel
theorem test_xvtbl_tail_step : output 0x0001000E in8 [0] 4 = [0xCC, 0x00, 0, 0] := by decide +kernel

/-- A BDX with all three tables built, each entry the doubled key (R191). -/
def tabled (s : State) : State :=
  { s with
    tv4 := true, tv8 := true, tv16 := true, t4 := entries4
    t8 := (List.range 256).map fun x => dbl 16 (BitVec.ofNat 8 x)
    t16 := (List.range 65536).map fun x => dbl 32 (BitVec.ofNat 16 x) }

/-- The tables of `tabled` are sound. -/
theorem tabled_sound (s : State) : TablesSound (tabled s) where
  four _ k := by
    rw [readT4_of_fill (f := fun x => dbl 8 (BitVec.ofNat 4 x)) (by simp only [tabled, entries4])]
    simp
  eight _ k := by
    rw [readT8_of_fill (f := fun x => dbl 16 (BitVec.ofNat 8 x)) (by simp only [tabled])]
    simp
  sixteen _ k := by
    rw [readT16_of_fill (f := fun x => dbl 32 (BitVec.ofNat 16 x)) (by simp only [tabled])]
    simp
  eightHasFour _ := rfl
  sixteenHasEight _ := rfl

/-- 2.5: the pair `A0 FF` and the odd last byte `12` of XLUT16. -/
theorem test_xlut16_blocks :
    blockXlut16 (tabled State.reset) [0xA0, 0xFF] = [0xCC, 0x00, 0xFF, 0xFF] ∧
    blockXlut16 (tabled State.reset) [0x12] = [0x03, 0x0C] := by
  constructor
  · rw [show blockXlut16 (tabled State.reset) [0xA0, 0xFF] = unpackBE 4 (readT16 (tabled State.reset) 0xA0FF) from rfl,
      (tabled_sound _).sixteen rfl]
    decide +kernel
  · rw [show blockXlut16 (tabled State.reset) [0x12] =
        unpackBE 2 ((readT16 (tabled State.reset) 0x0012).extractLsb' 0 16) from rfl, (tabled_sound _).sixteen rfl]
    decide +kernel

/-- 2.5: `STATUS` after the start steps of the table builds (`BUSY` in place of `DONE`), and the completion of TBLD8. -/
theorem test_table_builds_start :
    startReport State.reset 0x10 = (0x00010001, 0) ∧ startReport State.reset 0x11 = (0x00030001, 0) ∧
    startReport State.reset 0x12 = (0x00070001, 0) := by decide +kernel

theorem test_table_build_completes : statusWord (runFrom State.reset 2 [.writeReg .cmd 0x11, .bdx 0]) = 0x00030002 := by
  decide +kernel

/-- A command on 0 bytes builds its table and completes (2.5, R129). -/
theorem test_zero_length :
    statusWord (runFrom (idle 0xFFFFFFFF 0xFFFFFFFF 0) 2 [.writeReg .cmd 0x0001000B, .bdx 0]) = 0x00030002 := by
  decide +kernel

/-! ## Status, faults, reset -/

/-- R27: every bit of `STATUS` at its place. -/
theorem test_status_word :
    statusWord { State.reset with
      busy := true, done := false, fault := true, fever := false, busyErr := true, fcode := .length
      tv4 := true, tv8 := false, tv16 := true } = 0x00050515 := by decide

/-- R32: `CAP` of a hardware with 128-bit and 512-bit vectors only. -/
theorem test_cap_word :
    capWord { Config.Params.standard with hasVl256 := false } = 5 := by decide

/-- 2.7: partitions with `F_LENGTH` and without. -/
theorem test_length_faults :
    startReport (idle 0x100 0x1000 7) 0x00010003 = (0x0000050C, 0) ∧
    startReport (idle 0x100 0x1000 7) 0x00020003 = (0x0000050C, 1) ∧
    startReport (idle 0x100 0x1000 13) 0x00040004 = (0x0000050C, 3) ∧
    startReport (idle 0x100 0x1000 36) 0x00050005 = (0x0000050C, 4) ∧
    startReport (idle 0x100 0x1000 16) 0x00030003 = (0x00000001, 0) ∧
    startReport (idle 0x100 0x1000 44) 0x00C80005 = (0x0000050C, 0) := by decide +kernel

/-- 2.8: an illegal word is reported in `FINFO`. -/
theorem test_illegal_fault :
    startReport (idle 0x100 0x1000 0) 0x00018004 = (0x0000010C, 0x00018004) := by decide +kernel

/-- 2.9: `XVTBL.512 1` where `CAP = 3`, with no table built. -/
theorem test_unavailable_fault :
    startReport { idle 0x100 0x1000 0 with
      params := { Config.Params.standard with hasVl512 := false } } 0x0001020E =
      (0x0000020C, 0x0001020E) := by decide +kernel

/-- 2.10: the ranges at the end of the address space. -/
theorem test_range_faults :
    startReport (idle 0xFFFFFFFF 0x1000 1) 0x00010001 = (0x00000001, 0) ∧
    startReport (idle 0xFFFFFFFF 0x1000 2) 0x00010001 = (0x0000030C, 0) ∧
    startReport (idle 0x1000 0xFFFFFFFE 1) 0x00010001 = (0x00000001, 0) ∧
    startReport (idle 0x1000 0xFFFFFFFF 1) 0x00010001 = (0x0000030C, 1) ∧
    startReport (idle 0 0 0x80000001) 0x00010001 = (0x0000030C, 1) := by decide +kernel

/-- 2.10: memory that is backed only below 0x10000. -/
theorem test_unbacked_range :
    let p : Config.Params := { Config.Params.standard with unbacked := [⟨0x10000, 0xFFFF0000⟩] }
    startReport { idle 0xFFFF 0x1000 2 with params := p } 0x00010001 = (0x0000030C, 0) ∧
    startReport { idle 0x100 0xFFFF 1 with params := p } 0x00010001 = (0x0000030C, 1) := by decide +kernel

/-- 2.10: the overlap rows. -/
theorem test_overlap_faults :
    startReport (idle 0 0 0x80000000) 0x00010001 = (0x0000040C, 0) ∧
    startReport (idle 0x100 0xFF 1) 0x00010001 = (0x0000040C, 0) ∧
    startReport (idle 0x100 0xFE 1) 0x00010001 = (0x00000001, 0) ∧
    startReport (idle 0x100 0x101 1) 0x00010001 = (0x00000001, 0) ∧
    startReport (idle 0x200 0x100 0x81) 0x00010001 = (0x0000040C, 0) ∧
    startReport (idle 0x100 0x100 0) 0x00010001 = (0x00000001, 0) := by decide +kernel

/-- 2.10, priority: overlap before length. -/
theorem test_fault_priority : startReport (idle 0x100 0x100 6) 0x00010004 = (0x0000040C, 0) := by decide +kernel

/-- 2.11: the two orders of two chunks. The first turn of order A moves chunk 1, that of order B chunk 0. -/
theorem test_two_orders :
    output 0x00020003 [0xA0, 0x5F, 0x01, 0x80] [1] 8 = [0, 0, 0, 0, 0x00, 0x03, 0xC0, 0x00] ∧
    output 0x00020003 [0xA0, 0x5F, 0x01, 0x80] [0] 8 = [0xCC, 0x00, 0x33, 0xFF, 0, 0, 0, 0] ∧
    output 0x00020003 [0xA0, 0x5F, 0x01, 0x80] [1, 0] 8 = [0xCC, 0x00, 0x33, 0xFF, 0x00, 0x03, 0xC0, 0x00] := by
  decide +kernel

/-- P5: a write while busy sets `BUSYERR` and is ignored. -/
theorem test_write_while_busy :
    let t := runFrom (idle 0x1000 0x2000 4) 2 [.writeReg .cmd 0x00020003, .writeReg .len 9]
    statusWord t = 0x00000011 ∧ t.len = 4 := by decide +kernel

/-- P5: reset clears the registers and keeps the memory. -/
theorem test_reset_keeps_memory :
    let t := runFrom { idle 0x1000 0x2000 4 with fever := true, mem := [(0x1000, 0xFF)] } 1 [.reset]
    statusWord t = 0 ∧ t.src = 0 ∧ readReg t .cap = 7 ∧ t.mem = [(0x1000, 0xFF)] := by decide +kernel

/-- R22: reserved register 7 reads as 0, and the host reads back a byte it wrote. -/
theorem test_host_reads :
    (runFrom State.reset 3 [.readReg .reserved7, .memWrite 5 0xAB, .memRead 5]).seen =
      [.reg .reserved7 0, .mem 5 0xAB] := by decide +kernel

/-- Writing the blank byte removes the entry. -/
theorem test_memory_canonical : Memory.write [(5, 0xAB)] 5 0 = [] ∧ Memory.write [] 5 0 = [] := by decide

/-- A table row's word, placed, is run by the next step. -/
theorem test_withFetchWord :
    (after (step (State.reset.withFetchWord 32 0x00010004))).cmd = 0x00010004 ∧
    (after (step (State.reset.withFetchWord 32 0x00010004))).busy = true := by decide +kernel

/-! ## States that meet the hypotheses of the statements -/

/-- The checks of a start step as one Boolean, to be evaluated. -/
def checksPass (i : Instr) (s : State) : Bool :=
  available s.params i && !inputBad s && !outputBad s && !rangesOverlap s &&
    (List.range (chunkCount i)).all fun k => chunkLength i s k % granularity i == 0

/-- The Boolean says what `Accepts` says. -/
theorem accepts_of_checksPass {i : Instr} {s : State} (h : checksPass i s = true) : Accepts i s := by
  simp only [checksPass, Bool.and_eq_true, Bool.not_eq_true', List.all_eq_true, List.mem_range, beq_iff_eq] at h
  exact ⟨h.1.1.1.1, h.1.1.1.2, h.1.1.2, h.1.2, fun k hk => Nat.dvd_of_mod_eq_zero (h.2 k hk)⟩

/-- A running `i` with all tables built and `VT` loaded, its operands, its cursors and the next events given; the sixteen
bytes at 0x1000 are those of `va`. -/
def running (i : Instr) (src dst len : Word) (pos : List Nat) (es : List Event) : State :=
  tabled { idle src dst len with
    cmd := encode i, busy := true, pos := pos, events := es
    vt := (List.range 128).map fun j => dbl 8 (BitVec.ofNat 4 j)
    mem := Memory.writeBytes [] 0x1000 va }

/-- The memory of these states is in its canonical form. -/
theorem va_memory_wf : (Memory.writeBytes [] 0x1000 va).wf = true := by decide +kernel

/-- `running` is a running command, if the rest of what `Running` asks holds. -/
theorem running_runs {i : Instr} {src dst len : Word} {pos : List Nat} {es : List Event}
    (hd : decode (encode i) = .ok i)
    (ha : isExpand i = true → checksPass i (running i src dst len pos es) = true) (hl : pos.length = chunkCount i)
    (hc : ∀ k < chunkCount i, cursor (running i src dst len pos es) k ≤ chunkLength i (running i src dst len pos es) k)
    (hb : ∀ k < chunkCount i, atGroupBoundary i (chunkSource i (running i src dst len pos es) k)
      (chunkLength i (running i src dst len pos es) k) (cursor (running i src dst len pos es) k)) :
    Running i (running i src dst len pos es) where
  command := hd
  accepted h := accepts_of_checksPass (ha h)
  cursors := hl
  inChunk := hc
  boundary := hb
  table n _ := by cases n <;> rfl
  vtLoaded vls _ _ j hj := by
    have h4 : vls.toNat < 4 := vls.isLt
    have hle : laneCount vls ≤ 128 := by
      unfold laneCount
      have : 2 ^ vls.toNat ≤ 2 ^ 3 := Nat.pow_le_pow_right (by decide) (by omega)
      omega
    exact getD_map_range (fun j => dbl 8 (BitVec.ofNat 4 j)) (Nat.lt_of_lt_of_le hj hle) _

/-- A state with a running command and no report of an end is in the invariant, memory and tables provided. -/
theorem inv_of_running {i : Instr} {s : State} (hr : Running i s) (hm : s.mem.wf = true) (ht : TablesSound s)
    (hbusy : s.busy = true) (hd : s.done = false) (hf : s.fault = false) (hc : s.fcode = .none) (hi : s.finfo = 0) :
    Inv s where
  memory := hm
  busyNotDone := by simp [hd]
  busyNotFault := by simp [hf]
  doneNotFault := by simp [hd]
  faultHasCode := by simp [hf, hc]
  infoOnlyOfFault _ := hi
  faultRemembered h := by rw [hf] at h; cases h
  tables := ht
  idleHasNoCursor h := by rw [hbusy] at h; cases h
  busyRuns _ := ⟨i, hr⟩

/-- The state `running` is in the invariant where its command runs. -/
theorem running_inv {i : Instr} {src dst len : Word} {pos : List Nat} {es : List Event}
    (hr : Running i (running i src dst len pos es)) : Inv (running i src dst len pos es) :=
  inv_of_running hr va_memory_wf (tabled_sound _) rfl rfl rfl rfl rfl

/-- A state of an idle BDX with no report and no table is in the invariant. -/
theorem inv_of_idle {s : State} (hm : s.mem.wf = true) (h4 : s.tv4 = false) (h8 : s.tv8 = false)
    (h16 : s.tv16 = false) (hb : s.busy = false) (hd : s.done = false) (hf : s.fault = false) (hc : s.fcode = .none)
    (hi : s.finfo = 0) (hp : s.pos = []) : Inv s where
  memory := hm
  busyNotDone := by simp [hd]
  busyNotFault := by simp [hf]
  doneNotFault := by simp [hd]
  faultHasCode := by simp [hf, hc]
  infoOnlyOfFault _ := hi
  faultRemembered h := by rw [hf] at h; cases h
  tables := ⟨by simp [h4], by simp [h8], by simp [h16], by simp [h8], by simp [h16]⟩
  idleHasNoCursor _ := hp
  busyRuns h := by rw [hb] at h; cases h

/-- The state `idle` with a script and the bytes of `va` at 0x1000. -/
def ready (src dst len : Word) (es : List Event) : State :=
  { idle src dst len with events := es, mem := Memory.writeBytes [] 0x1000 va }

/-- `ready` is in the invariant. -/
theorem ready_inv (src dst len : Word) (es : List Event) : Inv (ready src dst len es) :=
  inv_of_idle va_memory_wf rfl rfl rfl rfl rfl rfl rfl rfl rfl

/-- What the statements on the step of a chunk ask of a state: a running command in which chunk 0 moves. -/
def Moves (i : Instr) (s : State) : Prop :=
  Inv s ∧ s.busy = true ∧ Running i s ∧ chunkToMove i s = some 0

/-- One chunk of sixteen bytes at 0x1000, its cursor at `p`. -/
def sixteen (i : Instr) (p : Nat) : State := running i 0x1000 0x2000 16 [p] [.bdx 0]

/-- One chunk of eighteen bytes at 0x100F, its cursor at `p`: with 16-byte vectors, a head of one byte, one vector and a tail
of one byte. -/
def eighteen (i : Instr) (p : Nat) : State := running i 0x100F 0x2000 18 [p] [.bdx 0]

/-- `Moves` from what can be evaluated, for a command of one chunk. -/
theorem moves_of {i : Instr} {src dst len : Word} {p : Nat} {es : List Event}
    (hd : decode (encode i) = .ok i) (hn : chunkCount i = 1)
    (ha : checksPass i (running i src dst len [p] es) = true)
    (hc : p ≤ chunkLength i (running i src dst len [p] es) 0)
    (hb : atGroupBoundary i (chunkSource i (running i src dst len [p] es) 0)
      (chunkLength i (running i src dst len [p] es) 0) p)
    (hm : chunkToMove i (running i src dst len [p] es) = some 0) : Moves i (running i src dst len [p] es) := by
  have hr : Running i (running i src dst len [p] es) :=
    running_runs hd (fun _ => ha) hn.symm
      (fun k hk => by obtain rfl : k = 0 := by omega
                      exact hc)
      (fun k hk => by obtain rfl : k = 0 := by omega
                      exact hb)
  exact ⟨running_inv hr, rfl, hr, hm⟩

/-- At the first byte of the chunk and at the last. -/
theorem witness_XsclStepWritesTheExpansion :
    Moves (.xscl 1) (sixteen (.xscl 1) 0) ∧
    Moves (.xscl 1) (sixteen (.xscl 1) 15) :=
  ⟨moves_of (by decide) (by decide) (by decide +kernel) (by decide +kernel) (atGroupBoundary_zero _ _ _) (by decide +kernel),
    moves_of (by decide) (by decide) (by decide +kernel) (by decide +kernel) (show 1 ∣ 15 by decide) (by decide +kernel)⟩

/-- At the last group of the chunk, but for XW8. -/
theorem witness_LadderStepsWriteTheExpansion :
    Moves (.xw8 1) (sixteen (.xw8 1) 0) ∧
    Moves (.xw16 1) (sixteen (.xw16 1) 14) ∧
    Moves (.xw32 1) (sixteen (.xw32 1) 12) ∧
    Moves (.xw64 1) (sixteen (.xw64 1) 8) :=
  ⟨moves_of (by decide) (by decide) (by decide +kernel) (by decide +kernel) (atGroupBoundary_zero _ _ _) (by decide +kernel),
    moves_of (by decide) (by decide) (by decide +kernel) (by decide +kernel) (show 2 ∣ 14 by decide) (by decide +kernel),
    moves_of (by decide) (by decide) (by decide +kernel) (by decide +kernel) (show 4 ∣ 12 by decide) (by decide +kernel),
    moves_of (by decide) (by decide) (by decide +kernel) (by decide +kernel) (show 8 ∣ 8 by decide) (by decide +kernel)⟩

/-- At the first byte. -/
theorem witness_MultiplyAndSquareStepsWriteTheExpansion :
    Moves (.xben 1) (sixteen (.xben 1) 0) ∧
    Moves (.xbenk 1) (sixteen (.xbenk 1) 0) ∧
    Moves (.xlau3 1) (sixteen (.xlau3 1) 0) ∧
    Moves (.xlau4 1) (sixteen (.xlau4 1) 0) :=
  ⟨moves_of (by decide) (by decide) (by decide +kernel) (by decide +kernel) (atGroupBoundary_zero _ _ _) (by decide +kernel),
    moves_of (by decide) (by decide) (by decide +kernel) (by decide +kernel) (atGroupBoundary_zero _ _ _) (by decide +kernel),
    moves_of (by decide) (by decide) (by decide +kernel) (by decide +kernel) (atGroupBoundary_zero _ _ _) (by decide +kernel),
    moves_of (by decide) (by decide) (by decide +kernel) (by decide +kernel) (atGroupBoundary_zero _ _ _) (by decide +kernel)⟩

/-- XLUT16 with two bytes left and with one. -/
theorem witness_LookupStepsWriteTheExpansion :
    Moves (.xlut4 1) (sixteen (.xlut4 1) 0) ∧
    Moves (.xlut8 1) (sixteen (.xlut8 1) 0) ∧
    Moves (.xlut16 1) (sixteen (.xlut16 1) 14) ∧
    Moves (.xlut16 1) (sixteen (.xlut16 1) 15) :=
  ⟨moves_of (by decide) (by decide) (by decide +kernel) (by decide +kernel) (atGroupBoundary_zero _ _ _) (by decide +kernel),
    moves_of (by decide) (by decide) (by decide +kernel) (by decide +kernel) (atGroupBoundary_zero _ _ _) (by decide +kernel),
    moves_of (by decide) (by decide) (by decide +kernel) (by decide +kernel) (show 1 ∣ 14 by decide) (by decide +kernel),
    moves_of (by decide) (by decide) (by decide +kernel) (by decide +kernel) (show 1 ∣ 15 by decide) (by decide +kernel)⟩

/-- In the head, at the body and in the tail. -/
theorem witness_XvzipStepsWriteTheExpansion :
    Moves (.xvzip 0 1) (eighteen (.xvzip 0 1) 0) ∧
    Moves (.xvzip 0 1) (eighteen (.xvzip 0 1) 1) ∧
    Moves (.xvzip 0 1) (eighteen (.xvzip 0 1) 17) :=
  ⟨moves_of (by decide) (by decide) (by decide +kernel) (by decide +kernel) (atGroupBoundary_zero _ _ _) (by decide +kernel),
    moves_of (by decide) (by decide) (by decide +kernel) (by decide +kernel) (.inr (.inl (by decide))) (by decide +kernel),
    moves_of (by decide) (by decide) (by decide +kernel) (by decide +kernel) (.inr (.inr (by decide))) (by decide +kernel)⟩

/-- In the head, at the body and in the tail. -/
theorem witness_XvtblStepsWriteTheExpansion :
    Moves (.xvtbl 0 1) (eighteen (.xvtbl 0 1) 0) ∧
    Moves (.xvtbl 0 1) (eighteen (.xvtbl 0 1) 1) ∧
    Moves (.xvtbl 0 1) (eighteen (.xvtbl 0 1) 17) :=
  ⟨moves_of (by decide) (by decide) (by decide +kernel) (by decide +kernel) (atGroupBoundary_zero _ _ _) (by decide +kernel),
    moves_of (by decide) (by decide) (by decide +kernel) (by decide +kernel) (.inr (.inl (by decide))) (by decide +kernel),
    moves_of (by decide) (by decide) (by decide +kernel) (by decide +kernel) (.inr (.inr (by decide))) (by decide +kernel)⟩

/-! ## One witness per statement with hypotheses, in the order of the statements -/

theorem witness_DecodeOfEncodeIsTheCommand :
    (Instr.xvzip 2 0xFFFF).wellFormed = true ∧ (Instr.xw64 1).wellFormed = true := by decide

theorem witness_EncodeOfDecodeIsTheWord : decode 0xFFFF020D = .ok (.xvzip 2 0xFFFF) := by decide

/-- The fields `OP`, `VLS`, `RSV`, `NCH` of words that meet the clauses' premises in turn, each at a boundary of its clause. -/
theorem witness_DecodeTestsTheWordInOrder :
    ([0x0001000F, 0x00010013, 0x0001FC0E, 0x0001030D, 0x0001030E, 0x0001010C, 0x00000110, 0x0000020E, 0x0000000C,
      0x00010010, 0x00010012] : List Word).map
        (fun w => ((w.extractLsb' 0 8).toNat, w.extractLsb' 8 2, w.extractLsb' 10 6, w.extractLsb' 16 16)) =
      [(0x0F, 0, 0, 1), (0x13, 0, 0, 1), (0x0E, 0, 0x3F, 1), (0x0D, 3, 0, 1), (0x0E, 3, 0, 1), (0x0C, 1, 0, 1),
        (0x10, 1, 0, 0), (0x0E, 2, 0, 0), (0x0C, 0, 0, 0), (0x10, 0, 0, 1), (0x12, 0, 0, 1)] ∧
    (List.range 12).map (fun k => (BitVec.ofNat 32 (0xFFFF0001 + k)).extractLsb' 0 8) =
      (List.range 12).map (fun k => BitVec.ofNat 8 (1 + k)) := by decide

theorem witness_IllegalWordsFaultAndDoNothingElse :
    illegalWord 0xFFFFFFFF ∧ (ready 0 0 0 [.writeReg .cmd 0xFFFFFFFF]).busy = false ∧
    (ready 0 0 0 [.writeReg .cmd 0xFFFFFFFF]).events = [.writeReg .cmd 0xFFFFFFFF] :=
  ⟨.inr (.inr (.inl (by decide))), rfl, rfl⟩

/-- An idle and a busy BDX at each register. -/
theorem witness_RegisterAccessesFollowTheTable (r : Reg) :
    (ready 1 2 3 [.writeReg r 7]).events = [.writeReg r 7] ∧ (ready 1 2 3 [.writeReg r 7]).busy = false ∧
    (running .tbld4 1 2 3 [] [.writeReg r 7]).events = [.writeReg r 7] ∧
    (running .tbld4 1 2 3 [] [.writeReg r 7]).busy = true ∧
    (ready 1 2 3 [.readReg r]).events = [.readReg r] := ⟨rfl, rfl, rfl, rfl, rfl⟩

theorem witness_CapIsConstantAndSaysWhichVectorsExist :
    ∃ s t, step s = .next t ∧ s.events = [.writeReg .cap 0] :=
  ⟨ready 0 0 0 [.writeReg .cap 0], _, next_of_goesOn (by decide +kernel), rfl⟩

theorem witness_ResetClearsEverythingButCapAndMemory :
    (running (.xscl 1) 0x1000 0x2000 16 [3] [.reset]).events = [.reset] := rfl

theorem witness_StickyBitsStayUntilReset :
    (∃ s t, step s = .next t ∧ s.events.head? ≠ some .reset ∧ s.fever = true ∧ s.busyErr = true) ∧
    (∃ t, step (ready 0 0 0 [.writeReg .cmd 0]) = .next t ∧
      (ready 0 0 0 [.writeReg .cmd 0]).events.head? = some (.writeReg .cmd 0) ∧
      (ready 0 0 0 [.writeReg .cmd 0]).busy = false ∧ t.fault = true) ∧
    (running .tbld4 1 2 3 [] [.writeReg .cap 7]).events = [.writeReg .cap 7] ∧
    (running .tbld4 1 2 3 [] [.writeReg .cap 7]).busy = true :=
  ⟨⟨{ ready 0 0 0 [.writeReg .cmd 0x10] with fever := true, busyErr := true }, _, next_of_goesOn (by decide +kernel),
    by decide +kernel, rfl, rfl⟩,
    ⟨after (step (ready 0 0 0 [.writeReg .cmd 0])), next_of_goesOn (by decide +kernel), rfl, rfl, by decide +kernel⟩,
    rfl, rfl⟩

/-- Each of the four registers does change by a write. -/
theorem witness_OperandRegistersChangeOnlyByHostWrites :
    ∀ r ∈ [Reg.src, .dst, .len, .cmd], ∃ t, step (ready 1 2 3 [.writeReg r 0]) = .next t ∧
      (ready 1 2 3 [.writeReg r 0]).events.head? ≠ some .reset ∧
      (r = .src → t.src ≠ (ready 1 2 3 [.writeReg r 0]).src) ∧ (r = .dst → t.dst ≠ (ready 1 2 3 [.writeReg r 0]).dst) ∧
      (r = .len → t.len ≠ (ready 1 2 3 [.writeReg r 0]).len) ∧
      (r = .cmd → ∃ u, step (ready 1 2 3 [.writeReg .cmd 0x10]) = .next u ∧
        u.cmd ≠ (ready 1 2 3 [.writeReg .cmd 0x10]).cmd) := by
  intro r _
  exact ⟨after (step (ready 1 2 3 [.writeReg r 0])), next_of_goesOn (by cases r <;> decide +kernel),
    by cases r <;> decide +kernel, fun h => by subst h; decide +kernel, fun h => by subst h; decide +kernel,
    fun h => by subst h; decide +kernel,
    fun _ => ⟨after (step (ready 1 2 3 [.writeReg .cmd 0x10])), next_of_goesOn (by decide +kernel), by decide +kernel⟩⟩

/-- A busy BDX takes a turn; an idle one takes a command. -/
theorem witness_ExactlyOneOfBusyDoneFaultFromTheFirstCommandOn :
    (∃ t, Inv (sixteen (.xw32 1) 0) ∧ step (sixteen (.xw32 1) 0) = .next t ∧
      (sixteen (.xw32 1) 0).events.head? ≠ some .reset ∧ exactlyOneOutcome (sixteen (.xw32 1) 0) = true) ∧
    ∃ t, Inv (ready 0 0 0 [.writeReg .cmd 0]) ∧ step (ready 0 0 0 [.writeReg .cmd 0]) = .next t ∧
      (ready 0 0 0 [.writeReg .cmd 0]).events.head? = some (.writeReg .cmd 0) :=
  ⟨⟨_, (moves_of (by decide) (by decide) (by decide +kernel) (by decide +kernel) (atGroupBoundary_zero _ _ _)
      (by decide +kernel) : Moves (.xw32 1) (sixteen (.xw32 1) 0)).1, next_of_goesOn (by decide +kernel),
      by decide +kernel, by decide +kernel⟩,
    ⟨_, ready_inv _ _ _ _, next_of_goesOn (by decide +kernel), by decide +kernel⟩⟩

theorem witness_HostThatKeepsTheRulesSetsNoBusyErr :
    ∃ t, step (sixteen (.xw32 1) 0) = .next t ∧ (sixteen (.xw32 1) 0).busyErr = false ∧
      ∀ e ∈ (sixteen (.xw32 1) 0).events.head?, keepsHazardRules (sixteen (.xw32 1) 0) e = true :=
  ⟨_, next_of_goesOn (by decide +kernel), rfl, fun e he => by
    have h : e ∈ some (Event.bdx 0) := he
    rw [Option.mem_some_iff] at h
    subst h
    rfl⟩

theorem witness_IdleBdxDoesNothing :
    (ready 1 2 3 []).busy = false ∧ (ready 1 2 3 []).events = [] ∧ (ready 1 2 3 [.bdx 5]).busy = false ∧
    (ready 1 2 3 [.bdx 5]).events = [.bdx 5] := ⟨rfl, rfl, rfl, rfl⟩

/-- An idle BDX, and a busy one that goes on: the completion of a table build. -/
theorem witness_WaitPollsUntilBusyFalls :
    (ready 1 2 3 [.wait]).events = [.wait] ∧ (ready 1 2 3 [.wait]).busy = false ∧
    (running .tbld4 1 2 3 [] [.wait]).events = [.wait] ∧ (running .tbld4 1 2 3 [] [.wait]).busy = true ∧
    ∃ t, step (running .tbld4 1 2 3 [] [.wait]) = .next t :=
  ⟨rfl, rfl, rfl, rfl, _, next_of_goesOn (by decide +kernel)⟩

theorem witness_StepRunsTheDecodedCommand :
    ((ready 1 2 3 [.writeReg .cmd 0x00010004]).busy = false ∧
      (ready 1 2 3 [.writeReg .cmd 0x00010004]).events = [.writeReg .cmd 0x00010004] ∧
      decode 0x00010004 = .ok (.xw32 1)) ∧
    ((sixteen (.xw32 1) 0).busy = true ∧ (sixteen (.xw32 1) 0).events = [.bdx 0] ∧
      decode (sixteen (.xw32 1) 0).cmd = .ok (.xw32 1)) ∧
    ((running .tbld4 1 2 3 [] []).busy = true ∧ (running .tbld4 1 2 3 [] []).events = [] ∧
      decode (running .tbld4 1 2 3 [] []).cmd = .ok .tbld4) ∧
    (0xFFFF020E < 2 ^ 32 ∧ decode (BitVec.ofNat 32 0xFFFF020E) = .ok (.xvtbl 2 0xFFFF)) :=
  ⟨⟨rfl, rfl, by decide⟩, ⟨rfl, rfl, by decide +kernel⟩, ⟨rfl, rfl, by decide +kernel⟩, by decide, by decide⟩

/-- A chunk step, a start step and the host's own write. -/
theorem witness_EveryStepKeepsTheInvariant :
    ∀ s ∈ [sixteen (.xw32 1) 0, ready 0x1000 0x2000 16 [.writeReg .cmd 0x00030001], ready 0 0 0 [.memWrite 9 7]],
      Inv s ∧ ∃ t, step s = .next t := by
  simp only [List.mem_cons, List.not_mem_nil, or_false, forall_eq_or_imp, forall_eq]
  exact ⟨⟨(moves_of (by decide) (by decide) (by decide +kernel) (by decide +kernel) (atGroupBoundary_zero _ _ _)
      (by decide +kernel) : Moves (.xw32 1) (sixteen (.xw32 1) 0)).1, _, next_of_goesOn (by decide +kernel)⟩,
    ⟨ready_inv _ _ _ _, _, next_of_goesOn (by decide +kernel)⟩,
    ⟨ready_inv _ _ _ _, _, next_of_goesOn (by decide +kernel)⟩⟩

theorem witness_NoStepFaultsFromTheInvariant : Inv (sixteen (.xvtbl 0 1) 0) :=
  (moves_of (by decide) (by decide) (by decide +kernel) (by decide +kernel) (atGroupBoundary_zero _ _ _)
    (by decide +kernel) : Moves (.xvtbl 0 1) (sixteen (.xvtbl 0 1) 0)).1

/-- The bounds on bit and byte positions in the statements on `spread`, `dbl`, `expand` and the masks, at their ends. -/
theorem witness_SpreadPutsBitsAtEvenPositions : 7 < 8 ∧ 0 < 1 := by decide
theorem witness_DblRepeatsEveryBit : 63 < 64 ∧ 0 < 1 := by decide
theorem witness_LawsOfDblAndSpread : dbl (2 * 8) 0x5F#8 = dbl (2 * 8) 0x5F#8 := rfl
theorem witness_ExpandDoublesEveryBitInOrder : 1 < [0xA0#8, 0x5F#8].length ∧ 4 ≤ 7 ∧ 7 ≤ 7 ∧ 3 ≤ 3 := by decide
theorem witness_AlternatingMasksAreThoseOfTheTable : 127 < 128 ∧ 127 / 64 % 2 = 1 ∧ 63 / 64 % 2 = 0 := by decide

/-- With sound tables and `VT` loaded: a head byte, a vector, a pair, a single byte. -/
theorem witness_EveryKernelComputesTheExpansion :
    TablesSound (sixteen (.xvtbl 0 1) 0) ∧ (sixteen (.xvtbl 0 1) 0).tv4 = true ∧
    (sixteen (.xvtbl 0 1) 0).tv8 = true ∧ (sixteen (.xvtbl 0 1) 0).tv16 = true ∧
    (∀ j < laneCount 0, vtLane (sixteen (.xvtbl 0 1) 0) j = readT4 (sixteen (.xvtbl 0 1) 0) (BitVec.ofNat 4 j)) ∧
    va.length = laneCount 0 ∧ [0xA0#8].length = 1 ∧ [0xA0#8, 0xFF#8].length = 2 :=
  ⟨tabled_sound _, rfl, rfl, rfl, by decide +kernel, by decide, rfl, rfl⟩

theorem witness_LaneLaws :
    TablesSound (sixteen (.xvtbl 0 1) 0) ∧ (sixteen (.xvtbl 0 1) 0).tv4 = true ∧ va.length = laneCount 0 ∧
    ∀ j < laneCount 0, vtLane (sixteen (.xvtbl 0 1) 0) j = readT4 (sixteen (.xvtbl 0 1) 0) (BitVec.ofNat 4 j) :=
  ⟨tabled_sound _, rfl, by decide, by decide +kernel⟩

/-- At `s = 0x10F` with 17 bytes and 16-byte vectors: the head is offset 0, the body 1 to 16, the tail would begin at 17. -/
theorem witness_HeadBodyAndTailCutTheChunk :
    0 < headLen 16 0x10F 17 ∧ headLen 16 0x10F 17 ≤ 1 ∧
    16 < headLen 16 0x10F 17 + bodyCount 16 0x10F 17 * 16 ∧
    headLen 16 0x10F 17 + bodyCount 16 0x10F 17 * 16 ≤ 17 ∧ 0 < bodyCount 16 0x10F 17 ∧ 15 < laneCount 0 := by decide

theorem witness_ChunksPartitionTheRange :
    0 < 4 ∧ 9 < 10 ∧ 19 < 2 * 10 ∧ 0 < chunkLen 10 4 (2 + 1) ∧
    chunkStart 10 4 3 ≤ 9 ∧ 9 < chunkStart 10 4 3 + chunkLen 10 4 3 ∧
    chunkCount (.xscl 4) = 4 ∧ (idle 0x1000 0x2000 10).len.toNat = 10 := by decide

theorem witness_ChunksBeyondTheDataAreEmpty :
    0 < 3 ∧ 3 < 5 ∧ 2 < 3 ∧ 3 ≤ 3 ∧ chunkLength (.xscl 5) (idle 0x1000 0x2000 3) 3 = 0 := by decide

/-- Every command passes its checks on sixteen bytes in one chunk. -/
theorem witness_ScalarAndWordParallelCommandsStart :
    ∀ i ∈ [Instr.xscl 1, .xw8 1, .xw16 1, .xw32 1, .xw64 1, .xben 1, .xbenk 1, .xlau3 1, .xlau4 1],
      (idle 0x1000 0x2000 16).busy = false ∧ Accepts i (idle 0x1000 0x2000 16) :=
  fun i hi => ⟨rfl, accepts_of_checksPass ((by decide +kernel : ∀ i ∈ [Instr.xscl 1, .xw8 1, .xw16 1, .xw32 1,
    .xw64 1, .xben 1, .xbenk 1, .xlau3 1, .xlau4 1], checksPass i (idle 0x1000 0x2000 16) = true) i hi)⟩

theorem witness_LookupCommandsStartWithTheirTablesBuilt :
    ∀ i ∈ [Instr.xlut4 1, .xlut8 1, .xlut16 1],
      (idle 0x1000 0x2000 16).busy = false ∧ Accepts i (idle 0x1000 0x2000 16) :=
  fun i hi => ⟨rfl, accepts_of_checksPass ((by decide +kernel : ∀ i ∈ [Instr.xlut4 1, .xlut8 1, .xlut16 1],
    checksPass i (idle 0x1000 0x2000 16) = true) i hi)⟩

theorem witness_VectorCommandsStart :
    ∀ i ∈ [Instr.xvzip 0 1, .xvzip 1 1, .xvzip 2 1, .xvtbl 0 1, .xvtbl 1 1, .xvtbl 2 1],
      (idle 0x1000 0x2000 16).busy = false ∧ Accepts i (idle 0x1000 0x2000 16) :=
  fun i hi => ⟨rfl, accepts_of_checksPass ((by decide +kernel : ∀ i ∈ [Instr.xvzip 0 1, .xvzip 1 1, .xvzip 2 1,
    .xvtbl 0 1, .xvtbl 1 1, .xvtbl 2 1], checksPass i (idle 0x1000 0x2000 16) = true) i hi)⟩

theorem witness_TableBuildCommandsBuildAndComplete :
    State.reset.busy = false ∧ (running .tbld4 1 2 3 [] []).busy = true := ⟨rfl, rfl⟩

theorem witness_ZeroLengthCompletesWithoutAnAccess :
    isExpand (.xlut8 65535) = true ∧ (idle 0xFFFFFFFF 0xFFFFFFFF 0).busy = false ∧
    (idle 0xFFFFFFFF 0xFFFFFFFF 0).len = 0 ∧ available (idle 0xFFFFFFFF 0xFFFFFFFF 0).params (.xlut8 65535) = true :=
  ⟨rfl, rfl, rfl, rfl⟩

/-- A hardware without 512-bit vectors, its memory backed below 0x10000 alone. -/
def small (src dst len : Word) (es : List Event) : State :=
  { ready src dst len es with
    params := { Config.Params.standard with hasVl512 := false, unbacked := [⟨0x10000, 0xFFFF0000⟩] } }

theorem witness_MissingVectorLengthFaults :
    (small 1 2 0 [.writeReg .cmd 0x0001020E]).busy = false ∧
    (capWord (small 1 2 0 [.writeReg .cmd 0x0001020E]).params).getLsbD (2#2).toNat = false ∧
    (small 1 2 0 [.writeReg .cmd 0x0001020E]).events = [.writeReg .cmd 0x0001020E] ∧
    decode 0x0001020E = .ok (.xvtbl 2 1) := by decide +kernel

/-- Bad by the end of the address space and by unbacked memory, input and output; and the largest accepted length. -/
theorem witness_BadRangeFaults :
    badRange Config.Params.standard 0xFFFFFFFF 2 ∧ badRange (small 0 0 0 []).params 0xFFFF 2 ∧
    ¬badRange Config.Params.standard 0xFFFFFFFF 1 ∧ badRange Config.Params.standard 0xFFFFFFFF 2 ∧
    isExpand (.xscl 1) = true ∧ available Config.Params.standard (.xscl 1) = true ∧
    Accepts (.xscl 1) (idle 0xAAAAAAAA 0 0x55555555) :=
  ⟨⟨by decide, .inl (by decide)⟩, ⟨by decide, .inr ⟨0x10000, by decide, by decide, by decide +kernel⟩⟩,
    fun h => h.2.elim (by decide) (fun ⟨_, _, _, hx⟩ => by cases hx), ⟨by decide, .inl (by decide)⟩, rfl, rfl,
    accepts_of_checksPass (by decide +kernel)⟩

/-- The last output byte is the first input byte. -/
theorem witness_OverlapFaults :
    isExpand (.xscl 1) = true ∧ (idle 0x100 0xFF 1).busy = false ∧
    available (idle 0x100 0xFF 1).params (.xscl 1) = true ∧
    ¬badRange (idle 0x100 0xFF 1).params (idle 0x100 0xFF 1).src.toNat (idle 0x100 0xFF 1).len.toNat ∧
    ¬badRange (idle 0x100 0xFF 1).params (idle 0x100 0xFF 1).dst.toNat (2 * (idle 0x100 0xFF 1).len.toNat) ∧
    (∃ a, (idle 0x100 0xFF 1).src.toNat ≤ a ∧ a < (idle 0x100 0xFF 1).src.toNat + (idle 0x100 0xFF 1).len.toNat ∧
      (idle 0x100 0xFF 1).dst.toNat ≤ a ∧ a < (idle 0x100 0xFF 1).dst.toNat + 2 * (idle 0x100 0xFF 1).len.toNat) ∧
    Accepts (.xscl 1) (idle 0x100 0xFE 1) ∧ (idle 0x100 0x100 0).len = 0 ∧ (idle 0x100 0x100 0).busy = false :=
  ⟨rfl, rfl, rfl, fun h => h.2.elim (by decide) (fun ⟨_, _, _, hx⟩ => by cases hx),
    fun h => h.2.elim (by decide) (fun ⟨_, _, _, hx⟩ => by cases hx),
    ⟨0x100, by decide +kernel, by decide +kernel, by decide +kernel, by decide +kernel⟩,
    accepts_of_checksPass (by decide +kernel), rfl, rfl⟩

/-- XW32 on 13 bytes in four chunks: the last chunk has one byte. The three cases of the closed form. -/
theorem witness_BadChunkLengthFaults :
    (isExpand (.xw32 4) = true ∧ (idle 0x100 0x1000 13).busy = false ∧
      available (idle 0x100 0x1000 13).params (.xw32 4) = true ∧ inputBad (idle 0x100 0x1000 13) = false ∧
      outputBad (idle 0x100 0x1000 13) = false ∧ rangesOverlap (idle 0x100 0x1000 13) = false ∧
      3 < chunkCount (.xw32 4) ∧ ¬granularity (.xw32 4) ∣ chunkLength (.xw32 4) (idle 0x100 0x1000 13) 3 ∧
      ∀ j < 3, granularity (.xw32 4) ∣ chunkLength (.xw32 4) (idle 0x100 0x1000 13) j) ∧
    0 < 4 ∧ chunkSize 16 3 % 4 ≠ 0 ∧ (chunkSize 13 4 % 4 = 0 ∧ 13 % 4 ≠ 0) ∧ chunkSize 16 4 % 4 = 0 ∧ 16 % 4 = 0 := by
  decide +kernel

/-- A state for every clause; of two faults at once, the second example has a bad input range too. -/
theorem witness_OneFaultIsReportedInTheFixedOrder :
    (available (small 1 2 3 []).params (.xvtbl 2 1) = false ∧ (small 1 2 3 []).busy = false) ∧
    inputBad (idle 0xFFFFFFFF 0x1000 2) = true ∧
    (inputBad (idle 0x1000 0xFFFFFFFF 1) = false ∧ outputBad (idle 0x1000 0xFFFFFFFF 1) = true) ∧
    (inputBad (idle 0x100 0x100 6) = false ∧ outputBad (idle 0x100 0x100 6) = false ∧
      rangesOverlap (idle 0x100 0x100 6) = true ∧ (idle 0x100 0x100 6).len = 6) ∧
    (inputBad (idle 0x100 0x1000 13) = false ∧ outputBad (idle 0x100 0x1000 13) = false ∧
      rangesOverlap (idle 0x100 0x1000 13) = false ∧
      firstBadChunk (granularity (.xw32 4)) (idle 0x100 0x1000 13).len.toNat (chunkCount (.xw32 4)) = some 3) ∧
    ((small 0xFFFFFFFF 0 2 []).params.hasVl512 = false ∧
      2 ^ 32 < (small 0xFFFFFFFF 0 2 []).src.toNat + (small 0xFFFFFFFF 0 2 []).len.toNat) ∧
    ((small 0 0 0 [.writeReg .cmd 0x0000030D]).events = [.writeReg .cmd 0x0000030D] ∧
      opField 0x0000030D = 0x0D ∧ nchField 0x0000030D = 0) := by decide +kernel

theorem witness_FaultLeavesNoTraceButFever :
    ∃ t, (ready 0x1000 0x2000 16 [.writeReg .cmd 0x00010004]).busy = false ∧
      (ready 0x1000 0x2000 16 [.writeReg .cmd 0x00010004]).events = [.writeReg .cmd 0x00010004] ∧
      step (ready 0x1000 0x2000 16 [.writeReg .cmd 0x00010004]) = .next t :=
  ⟨_, rfl, rfl, next_of_goesOn (by decide +kernel)⟩

/-- All cursors at their ends; and one short of its end, with a step that goes on. -/
theorem witness_CompletionComesExactlyWhenNoGroupIsLeft :
    ((sixteen (.xw32 1) 16).busy = true ∧
      ∀ k < chunkCount (.xw32 1), chunkLength (.xw32 1) (sixteen (.xw32 1) 16) k ≤ cursor (sixteen (.xw32 1) 16) k) ∧
    ∃ t, (sixteen (.xw32 1) 12).busy = true ∧ isExpand (.xw32 1) = true ∧ 0 < chunkCount (.xw32 1) ∧
      cursor (sixteen (.xw32 1) 12) 0 < chunkLength (.xw32 1) (sixteen (.xw32 1) 12) 0 ∧
      exec (.xw32 1) (sixteen (.xw32 1) 12) = .next t :=
  ⟨⟨rfl, by decide +kernel⟩, _, rfl, rfl, by decide, by decide +kernel, next_of_goesOn (by decide +kernel)⟩

/-- Two chunks of eight bytes, one at its start, one at its last byte. -/
theorem two_chunks_run : Running (.xscl 2) (running (.xscl 2) 0x1000 0x2000 16 [0, 7] []) :=
  running_runs (by decide) (fun _ => by decide +kernel) (by decide) (by decide +kernel) (fun _ _ => Nat.one_dvd _)

theorem witness_AnyChunkWithWorkMayMoveNext :
    isExpand (.xscl 2) = true ∧ Inv (running (.xscl 2) 0x1000 0x2000 16 [0, 7] []) ∧
    (running (.xscl 2) 0x1000 0x2000 16 [0, 7] []).busy = true ∧
    Running (.xscl 2) (running (.xscl 2) 0x1000 0x2000 16 [0, 7] []) ∧ 1 < chunkCount (.xscl 2) ∧
    cursor (running (.xscl 2) 0x1000 0x2000 16 [0, 7] []) 1 <
      chunkLength (.xscl 2) (running (.xscl 2) 0x1000 0x2000 16 [0, 7] []) 1 :=
  ⟨rfl, running_inv two_chunks_run, rfl, two_chunks_run, by decide, by decide +kernel⟩

/-- The step writes `33 CF` for the byte `5B`, over blank memory. -/
theorem witness_MemoryChangesOnlyInTheOutputRange :
    ∃ t, Inv (sixteen (.xscl 1) 0) ∧ step (sixteen (.xscl 1) 0) = .next t ∧
      (∀ b v, (sixteen (.xscl 1) 0).events.head? ≠ some (.memWrite b v)) ∧
      t.mem.read 0x2000 ≠ (sixteen (.xscl 1) 0).mem.read 0x2000 :=
  ⟨after (step (sixteen (.xscl 1) 0)), witness_XsclStepWritesTheExpansion.1.1, next_of_goesOn (by decide +kernel),
    fun b v h => (by cases h), by decide +kernel⟩

theorem witness_WrittenOutputIsNotWrittenAgain :
    ∃ t, Inv (sixteen (.xscl 1) 15) ∧ (sixteen (.xscl 1) 15).busy = true ∧ Running (.xscl 1) (sixteen (.xscl 1) 15) ∧
      step (sixteen (.xscl 1) 15) = .next t ∧
      (∀ b v, (sixteen (.xscl 1) 15).events.head? ≠ some (.memWrite b v)) ∧ 0 < chunkCount (.xscl 1) ∧
      14 < cursor (sixteen (.xscl 1) 15) 0 :=
  ⟨_, witness_XsclStepWritesTheExpansion.2.1, rfl, witness_XsclStepWritesTheExpansion.2.2.2.1,
    next_of_goesOn (by decide +kernel), fun b v h => (by cases h), by decide, by decide +kernel⟩

theorem witness_BuiltTablesNeverChangeUntilReset :
    ∃ t, step (sixteen (.xlut16 1) 0) = .next t ∧ (sixteen (.xlut16 1) 0).events.head? ≠ some .reset ∧
      (sixteen (.xlut16 1) 0).tv4 = true ∧ (sixteen (.xlut16 1) 0).tv8 = true ∧ (sixteen (.xlut16 1) 0).tv16 = true :=
  ⟨_, next_of_goesOn (by decide +kernel), fun h => (by cases h), rfl, rfl, rfl⟩

/-- An idle BDX at the last address, and a busy one at a byte of the output range (log entries 11 and 12). -/
theorem witness_HostReadReturnsTheLastWrite :
    Inv (ready 0 0 0 [.memWrite 0xFFFFFFFF 0xAB, .memRead 0xFFFFFFFF]) ∧
    memOk (ready 0 0 0 []).params (0xFFFFFFFF#32).toNat = true ∧
    (ready 0 0 0 [.memWrite 0xFFFFFFFF 0xAB, .memRead 0xFFFFFFFF]).events =
      [.memWrite 0xFFFFFFFF 0xAB, .memRead 0xFFFFFFFF] ∧
    Inv (running (.xscl 2) 0x1000 0x2000 16 [0, 7] [.memWrite 0x2000 0xAB, .memRead 0x2000]) ∧
    (running (.xscl 2) 0x1000 0x2000 16 [0, 7] [.memWrite 0x2000 0xAB, .memRead 0x2000]).busy = true ∧
    memOk (running (.xscl 2) 0x1000 0x2000 16 [0, 7] []).params (0x2000#32).toNat = true ∧
    (running (.xscl 2) 0x1000 0x2000 16 [0, 7] [.memWrite 0x2000 0xAB, .memRead 0x2000]).events =
      [.memWrite 0x2000 0xAB, .memRead 0x2000] :=
  ⟨ready_inv _ _ _ _, rfl, rfl, running_inv (running_runs (by decide) (fun _ => by decide +kernel) (by decide)
    (by decide +kernel) (fun _ _ => Nat.one_dvd _)), rfl, rfl, rfl⟩

theorem witness_CommandWritesTheExpansionInEveryOrder :
    isExpand (.xvtbl 1 3) = true ∧ decode 0x0003010E = .ok (.xvtbl 1 3) ∧
    Inv (ready 0x100F 0x2001 50 (.writeReg .cmd 0x0003010E :: [2, 0, 1].map .bdx)) ∧
    (ready 0x100F 0x2001 50 (.writeReg .cmd 0x0003010E :: [2, 0, 1].map .bdx)).busy = false ∧
    Accepts (.xvtbl 1 3) (ready 0x100F 0x2001 50 (.writeReg .cmd 0x0003010E :: [2, 0, 1].map .bdx)) ∧
    (ready 0x100F 0x2001 50 (.writeReg .cmd 0x0003010E :: [2, 0, 1].map .bdx)).events =
      .writeReg .cmd 0x0003010E :: [2, 0, 1].map .bdx :=
  ⟨rfl, by decide, ready_inv _ _ _ _, rfl, accepts_of_checksPass (by decide +kernel), rfl⟩

/-- XSCL in two chunks and XW8 in one on two bytes, the schedules long enough that no free choice is left. -/
theorem witness_ResultDoesNotDependOnKernelChunksOrOrder :
    ∃ t u, isExpand (.xscl 2) = true ∧ isExpand (.xw8 1) = true ∧ decode 0x00020001 = .ok (.xscl 2) ∧
      decode 0x00010002 = .ok (.xw8 1) ∧ Inv (ready 0x1000 0x2000 2 []) ∧ (ready 0x1000 0x2000 2 []).busy = false ∧
      Accepts (.xscl 2) (ready 0x1000 0x2000 2 []) ∧ Accepts (.xw8 1) (ready 0x1000 0x2000 2 []) ∧
      Host.Core.run Sys2Proof.core ([1, 0, 0].length + (ready 0x1000 0x2000 2 []).len.toNat + 2)
        { ready 0x1000 0x2000 2 [] with events := .writeReg .cmd 0x00020001 :: [1, 0, 0].map .bdx } = .next t ∧
      Host.Core.run Sys2Proof.core ([0, 0, 0].length + (ready 0x1000 0x2000 2 []).len.toNat + 2)
        { ready 0x1000 0x2000 2 [] with events := .writeReg .cmd 0x00010002 :: [0, 0, 0].map .bdx } = .next u :=
  ⟨_, _, rfl, rfl, by decide, by decide, ready_inv _ _ _ _, rfl, accepts_of_checksPass (by decide +kernel),
    accepts_of_checksPass (by decide +kernel), next_of_goesOn (by decide +kernel), next_of_goesOn (by decide +kernel)⟩

end Sys2Proof.Tests
end

section
/-! SUPPORT. How `STATUS` and `CAP` are read bit by bit, and what a step of a command, a turn of BDX and a register write leave
of the registers, the sticky bits and the constants; with these, the statements on `STATUS`, `CAP` and the sticky bits (spec
10_state.md R27 to R32). -/

namespace Sys2Proof.Machine

/-! ## The words the host reads -/

/-- Reserved bits put on top of a value are read as 0. -/
theorem getLsbD_zero_append (m : Nat) {n : Nat} (x : BitVec n) (j : Nat) : (0#m ++ x).getLsbD j = x.getLsbD j := by
  rw [BitVec.getLsbD_append, BitVec.getLsbD_zero]
  split
  · rfl
  · exact (BitVec.getLsbD_of_ge x j (Nat.le_of_not_lt ‹_›)).symm

/-- A flag put on top of a value is the bit just above it. -/
theorem getLsbD_ofBool_append (b : Bool) {n : Nat} (x : BitVec n) (j : Nat) :
    (BitVec.ofBool b ++ x).getLsbD j = if j = n then b else x.getLsbD j := by
  rw [BitVec.getLsbD_append, BitVec.getLsbD_ofBool]
  obtain h | rfl | h := Nat.lt_trichotomy j n
  · simp [h, h.ne]
  · simp
  · simp [h.ne', h.not_gt, Nat.sub_ne_zero_of_lt h, BitVec.getLsbD_of_ge x j h.le]

/-- `CAP` bit by bit (R32). -/
theorem getLsbD_capWord (p : Config.Params) (j : Nat) :
    (capWord p).getLsbD j =
      if j = 2 then p.hasVl512 else if j = 1 then p.hasVl256 else decide (j = 0) && p.hasVl128 := by
  unfold capWord
  rw [getLsbD_zero_append, getLsbD_ofBool_append, getLsbD_ofBool_append, BitVec.getLsbD_ofBool]

/-- `STATUS` bit by bit, from the top (R27): above bit 18 and between the fields only zeros. -/
theorem getLsbD_statusWord (s : State) (j : Nat) :
    (statusWord s).getLsbD j =
      if j = 18 then s.tv16 else if j = 17 then s.tv8 else if j = 16 then s.tv4
      else if j < 8 then
        if j = 4 then s.busyErr else if j = 3 then s.fever else if j = 2 then s.fault else if j = 1 then s.done
        else decide (j = 0) && s.busy
      else s.fcode.code.getLsbD (j - 8) := by
  unfold statusWord
  rw [getLsbD_zero_append, getLsbD_ofBool_append, getLsbD_ofBool_append, getLsbD_ofBool_append, getLsbD_zero_append,
    BitVec.getLsbD_append, getLsbD_zero_append, getLsbD_ofBool_append, getLsbD_ofBool_append,
    getLsbD_ofBool_append, getLsbD_ofBool_append, BitVec.getLsbD_ofBool]

/-- `STATUS.FCODE` is the code of the cause held (R27, R30). -/
theorem statusWord_fcode (s : State) : (statusWord s).extractLsb' 8 4 = s.fcode.code := by
  ext j hj
  grind [getLsbD_statusWord]

/-- The reserved bits of `STATUS` read 0 (R27). -/
theorem statusWord_reserved (s : State) :
    (statusWord s).extractLsb' 5 3 = 0 ∧ (statusWord s).extractLsb' 12 4 = 0 ∧
    (statusWord s).extractLsb' 19 13 = 0 := by
  refine ⟨?_, ?_, ?_⟩ <;> ext j hj <;> grind [getLsbD_statusWord]

/-- No cause has a code above 5 (R30). -/
theorem fcode_code_le (c : FCode) : c.code.toNat ≤ 5 := by
  cases c <;> decide

/-- The reserved bits of `CAP` read 0 (R32). -/
theorem capWord_reserved (p : Config.Params) : (capWord p).extractLsb' 3 29 = 0 := by
  ext j hj
  grind [getLsbD_capWord]

/-! ## What a command leaves unchanged -/

/-- What every step of a command leaves as it was (R21, R23, R29, R32): the operand registers and `CMD`, `BUSYERR`, the
hardware's constants, the script and the log; `FEVER` does not fall, and `FAULT` rises only together with `FEVER`. -/
structure CommandFrame (s t : State) : Prop where
  src : t.src = s.src
  dst : t.dst = s.dst
  len : t.len = s.len
  cmd : t.cmd = s.cmd
  busyErr : t.busyErr = s.busyErr
  params : t.params = s.params
  events : t.events = s.events
  seen : t.seen = s.seen
  fever : s.fever = true → t.fever = true
  fault : t.fault = true → s.fault = true ∨ t.fever = true

/-- Memory, the cursors and the choice of the turn lie outside the frame: any change of them keeps it. -/
theorem CommandFrame.of_work (s : State) (mem : Memory) (pos : List Nat) (pick tick : Nat) :
    CommandFrame s { s with mem := mem, pos := pos, pick := pick, tick := tick } :=
  ⟨rfl, rfl, rfl, rfl, rfl, rfl, rfl, rfl, id, .inl⟩

theorem CommandFrame.refl (s : State) : CommandFrame s s :=
  .of_work s s.mem s.pos s.pick s.tick

theorem CommandFrame.trans {s t u : State} (h : CommandFrame s t) (k : CommandFrame t u) : CommandFrame s u where
  src := k.src.trans h.src
  dst := k.dst.trans h.dst
  len := k.len.trans h.len
  cmd := k.cmd.trans h.cmd
  busyErr := k.busyErr.trans h.busyErr
  params := k.params.trans h.params
  events := k.events.trans h.events
  seen := k.seen.trans h.seen
  fever := k.fever ∘ h.fever
  fault := fun hu => (k.fault hu).elim (fun ht => (h.fault ht).imp_right k.fever) .inr

/-- The completion step (R128). -/
theorem completeCommand_frame (s : State) : CommandFrame s (completeCommand s) := by
  constructor <;> simp +contextual

/-- The start step of an expand command, accepted or not. -/
theorem startExpand_frame (i : Instr) (s : State) : CommandFrame s (startExpand i s) := by
  obtain ⟨code, info, -, h⟩ | ⟨-, h⟩ := startExpand_cases i s <;> rw [h]
  · constructor <;> simp
  · constructor <;> simp +contextual

theorem runExpand_frame {i : Instr} {block : State → List Byte → List Byte} {s t : State}
    (h : runExpand i block s = .next t) : CommandFrame s t := by
  obtain ⟨-, rfl⟩ | ⟨-, h⟩ := runExpand_next h
  · exact startExpand_frame i s
  · obtain ⟨-, rfl⟩ | ⟨k, -, -, h⟩ := busyExpand_next h
    · exact completeCommand_frame s
    · obtain ⟨-, -, rfl⟩ := chunkStep_next h
      exact .of_work s _ _ _ _

theorem runTableBuild_frame {i : Instr} {s t : State} (h : runTableBuild i s = .next t) : CommandFrame s t := by
  obtain ⟨-, rfl⟩ | ⟨-, rfl⟩ := runTableBuild_next h
  · constructor <;> simp +contextual
  · exact completeCommand_frame s

/-- Any step of any command (R124, R127, R128). -/
theorem exec_frame {i : Instr} {s t : State} (h : exec i s = .next t) : CommandFrame s t := by
  obtain ⟨block, he⟩ | ⟨-, he⟩ := exec_cases i
  · exact runExpand_frame (he s ▸ h)
  · exact runTableBuild_frame (he s ▸ h)

theorem bdxTurn_frame {p : Nat} {s t : State} (h : bdxTurn p s = .next t) : CommandFrame s t := by
  obtain ⟨-, rfl⟩ | ⟨-, i, -, h⟩ := bdxTurn_next h
  · exact .refl t
  · exact (CommandFrame.of_work s s.mem s.pos p s.tick).trans (exec_frame h)

theorem freeTurn_frame {s t : State} (h : freeTurn s = .next t) : CommandFrame s t := by
  obtain ⟨-, rfl⟩ | ⟨-, h⟩ := freeTurn_next h
  · exact .refl t
  · exact (CommandFrame.of_work s s.mem s.pos s.pick (s.tick + 1)).trans (bdxTurn_frame h)

/-! ## What survives every event but a reset -/

/-- The sticky bits do not fall, and the hardware's constants are the same (R29, R32). -/
structure KeepsSticky (s t : State) : Prop where
  params : t.params = s.params
  fever : s.fever = true → t.fever = true
  busyErr : s.busyErr = true → t.busyErr = true

theorem CommandFrame.keepsSticky {s t : State} (h : CommandFrame s t) : KeepsSticky s t :=
  ⟨h.params, h.fever, fun hs => h.busyErr.trans hs⟩

/-- The write of `CMD` on an idle BDX, refused or accepted: its `FAULT` comes with `FEVER` (R28, R29, R290). -/
theorem startCommand_sticky {w : Word} {s t : State} (hb : s.busy = false) (h : startCommand w s = .next t) :
    KeepsSticky s t ∧ (t.fault = true → t.fever = true) := by
  obtain ⟨e, -, he⟩ | ⟨i, -, he, -⟩ := startCommand_idle (w := w) hb <;> rw [he] at h
  · cases h
    exact ⟨by constructor <;> simp, by simp⟩
  · have hf := exec_frame h
    exact ⟨⟨hf.params, hf.fever, fun hs => hf.busyErr.trans hs⟩, fun ht => (hf.fault ht).resolve_left (by simp)⟩

theorem writeReg_keepsSticky {r : Reg} {v : Word} {s t : State} (h : writeReg r v s = .next t) : KeepsSticky s t := by
  obtain ⟨-, rfl⟩ | ⟨hb, ⟨-, rfl⟩ | ⟨-, rfl⟩ | ⟨-, rfl⟩ | ⟨-, h⟩ | ⟨-, rfl⟩⟩ := writeReg_next h
  · constructor <;> simp
  · exact ⟨rfl, id, id⟩
  · exact ⟨rfl, id, id⟩
  · exact ⟨rfl, id, id⟩
  · exact (startCommand_sticky hb h).1
  · exact ⟨rfl, id, id⟩

/-- One step of the machine: a reset, or the sticky bits and the constants are kept. -/
theorem step_reset_or_keepsSticky {s t : State} (h : step s = .next t) :
    (∃ rest, s.events = .reset :: rest ∧ t = applyReset { s with events := rest }) ∨ KeepsSticky s t := by
  obtain ⟨-, h⟩ | ⟨e, rest, he, h⟩ := step_next h
  · exact .inr (freeTurn_frame h).keepsSticky
  · have popped {u : State} (k : KeepsSticky { s with events := rest } u) : KeepsSticky s u :=
      ⟨k.params, k.fever, k.busyErr⟩
    obtain ⟨r, v, -, h⟩ | ⟨r, -, rfl⟩ | ⟨a, v, -, -, rfl⟩ | ⟨a, -, -, rfl⟩ | ⟨-, -, h⟩ | ⟨-, -, rfl⟩ | ⟨rfl, rfl⟩ |
      ⟨p, -, h⟩ := h
    · exact .inr (popped (writeReg_keepsSticky h))
    · exact .inr ⟨rfl, id, id⟩
    · exact .inr ⟨rfl, id, id⟩
    · exact .inr ⟨rfl, id, id⟩
    · exact .inr (freeTurn_frame h).keepsSticky
    · exact .inr ⟨rfl, id, id⟩
    · exact .inl ⟨rest, he, rfl⟩
    · exact .inr (popped (bdxTurn_frame h).keepsSticky)

/-- No step changes the hardware's constants, reset included (R32, R311). -/
theorem step_params {s t : State} (h : step s = .next t) : t.params = s.params := by
  obtain ⟨rest, -, rfl⟩ | h := step_reset_or_keepsSticky h
  · rfl
  · exact h.params

/-- A register write while busy, with its whole next state (R22, R29). -/
theorem step_writeReg_busy {s : State} {r : Reg} {v : Word} {rest : List Event}
    (he : s.events = .writeReg r v :: rest) (hb : s.busy = true) :
    step s = .next { s with events := rest, busyErr := true } := by
  simp [step_cons he, takeEvent, writeReg, hb, writeWhileBusy]

/-- The step that writes `CMD` on an idle BDX: its `FAULT` comes with `FEVER` (R29). -/
theorem step_writeCmd_fever_of_fault {s t : State} {w : Word} (h : step s = .next t)
    (he : s.events.head? = some (.writeReg .cmd w)) (hb : s.busy = false) (ht : t.fault = true) : t.fever = true := by
  obtain ⟨rest, he⟩ := List.head?_eq_some_iff.mp he
  have hstart : startCommand w { s with events := rest } = .next t := by
    simpa [step_cons he, takeEvent, writeReg, hb] using h
  exact (startCommand_sticky (s := { s with events := rest }) hb hstart).2 ht

/-! ## The statements -/

/-- Settles O8: no step changes the constants that `CAP` shows. -/
theorem capIsConstantAndSaysWhichVectorsExist : Obligations.CapIsConstantAndSaysWhichVectorsExist :=
  ⟨fun p => ⟨getLsbD_capWord p 0, getLsbD_capWord p 1, getLsbD_capWord p 2, capWord_reserved p⟩,
    fun _ _ _ => ⟨rfl, rfl⟩, fun _ _ h => congrArg capWord (step_params h)⟩

/-- Settles O11: every event but a reset keeps the sticky bits, and a start step raises `FAULT` only with `FEVER`. -/
theorem stickyBitsStayUntilReset : Obligations.StickyBitsStayUntilReset := by
  refine ⟨fun s t h hr => ?_, fun s t w => step_writeCmd_fever_of_fault, fun s r v rest => step_writeReg_busy⟩
  obtain ⟨rest, he, -⟩ | hk := step_reset_or_keepsSticky h
  · exact absurd (by rw [he]; rfl) hr
  · exact ⟨hk.fever, hk.busyErr⟩

/-- Settles O7: each flag is the bit at its place, and the codes are those of the six causes. -/
theorem statusFieldsStandWhereTheTableSays : Obligations.StatusFieldsStandWhereTheTableSays := by
  intro s
  obtain ⟨hlow, hmid, hhigh⟩ := statusWord_reserved s
  exact ⟨getLsbD_statusWord s 0, getLsbD_statusWord s 1, getLsbD_statusWord s 2, getLsbD_statusWord s 3,
    getLsbD_statusWord s 4, hlow, statusWord_fcode s, hmid, getLsbD_statusWord s 16, getLsbD_statusWord s 17,
    getLsbD_statusWord s 18, hhigh, rfl, rfl, rfl, rfl, rfl, rfl, fcode_code_le⟩

end Sys2Proof.Machine
end

section
/-! SUPPORT. The decoder of R97 by the three formats of R95: which opcodes have which format, and what `decode` answers for a
word of each format and for a word of none; with these, the statements on the order of the tests (spec 30_encoding.md R97)
and on the illegal words (R98). -/

namespace Sys2Proof.Machine

/-! ## The opcode map by its ranges (R96) -/

/-- An opcode is given by its number, so `formatOf` at a numeral says the row. -/
theorem formatOf_of_toNat {op : BitVec 8} {n : Nat} (h : op.toNat = n) : formatOf op = formatOf (BitVec.ofNat 8 n) := by
  rw [← h, BitVec.ofNat_toNat, BitVec.setWidth_eq]

theorem formatOf_expand {op : BitVec 8} (hlo : 1 ≤ op.toNat) (hhi : op.toNat ≤ 0x0C) :
    ∃ mk, formatOf op = some (.expand mk) := by
  unfold formatOf
  interval_cases op.toNat <;> exact ⟨_, rfl⟩

theorem formatOf_vector {op : BitVec 8} (h : op.toNat = 0x0D ∨ op.toNat = 0x0E) :
    ∃ mk, formatOf op = some (.vector mk) := by
  unfold formatOf
  obtain h | h := h <;> rw [h] <;> exact ⟨_, rfl⟩

theorem formatOf_tableBuild {op : BitVec 8} (hlo : 0x10 ≤ op.toNat) (hhi : op.toNat ≤ 0x12) :
    ∃ i, formatOf op = some (.tableBuild i) := by
  unfold formatOf
  interval_cases op.toNat <;> exact ⟨_, rfl⟩

theorem formatOf_unassigned {op : BitVec 8} (h : op.toNat = 0x00 ∨ op.toNat = 0x0F ∨ 0x13 ≤ op.toNat) :
    formatOf op = none := by
  unfold formatOf
  split
  case h_18 => rfl
  all_goals omega

theorem formatOf_assigned {op : BitVec 8}
    (h : (1 ≤ op.toNat ∧ op.toNat ≤ 0x0E) ∨ (0x10 ≤ op.toNat ∧ op.toNat ≤ 0x12)) : ∃ f, formatOf op = some f := by
  obtain hx | hv | ht : (1 ≤ op.toNat ∧ op.toNat ≤ 0x0C) ∨ (op.toNat = 0x0D ∨ op.toNat = 0x0E) ∨
      (0x10 ≤ op.toNat ∧ op.toNat ≤ 0x12) := by omega
  · obtain ⟨mk, hf⟩ := formatOf_expand hx.1 hx.2
    exact ⟨_, hf⟩
  · obtain ⟨mk, hf⟩ := formatOf_vector hv
    exact ⟨_, hf⟩
  · obtain ⟨i, hf⟩ := formatOf_tableBuild ht.1 ht.2
    exact ⟨_, hf⟩

/-! ## What `decode` answers, format by format (R97) -/

section Decoded
variable {w : Word}

theorem decode_unassigned (hf : formatOf (opField w) = none) : decode w = .error .unassignedOpcode := by
  simp only [decode, hf]

theorem decode_reservedBits {f : Format} (hf : formatOf (opField w) = some f) (hr : rsvField w ≠ 0) :
    decode w = .error .reservedBits := by
  simp only [decode, hf, if_pos hr]

theorem decode_expand {mk : BitVec 16 → Instr} (hf : formatOf (opField w) = some (.expand mk)) (hr : rsvField w = 0) :
    decode w =
      if vlsField w ≠ 0 then .error .badVectorLength
      else if nchField w = 0 then .error .badChunkCount
      else .ok (mk (nchField w)) := by
  simp [decode, hf, hr]

theorem decode_vector {mk : BitVec 2 → BitVec 16 → Instr} (hf : formatOf (opField w) = some (.vector mk))
    (hr : rsvField w = 0) :
    decode w =
      if vlsField w = 3 then .error .badVectorLength
      else if nchField w = 0 then .error .badChunkCount
      else .ok (mk (vlsField w) (nchField w)) := by
  simp [decode, hf, hr]

theorem decode_tableBuild {i : Instr} (hf : formatOf (opField w) = some (.tableBuild i)) (hr : rsvField w = 0) :
    decode w =
      if vlsField w ≠ 0 then .error .badVectorLength
      else if nchField w ≠ 0 then .error .badChunkCount
      else .ok i := by
  simp [decode, hf, hr]

/-! ## A word that passes the tests is the command of its row (R97 (5)) -/

theorem decode_expand_ok {mk : BitVec 16 → Instr} (hr : rsvField w = 0) (hv : vlsField w = 0) (hn : nchField w ≠ 0)
    (hf : formatOf (opField w) = some (.expand mk)) : decode w = .ok (mk (nchField w)) := by
  rw [decode_expand hf hr, if_neg (not_not_intro hv), if_neg hn]

theorem decode_vector_ok {mk : BitVec 2 → BitVec 16 → Instr} (hr : rsvField w = 0) (hv : vlsField w ≠ 3)
    (hn : nchField w ≠ 0) (hf : formatOf (opField w) = some (.vector mk)) :
    decode w = .ok (mk (vlsField w) (nchField w)) := by
  rw [decode_vector hf hr, if_neg hv, if_neg hn]

theorem decode_tableBuild_ok {i : Instr} (hr : rsvField w = 0) (hv : vlsField w = 0) (hn : nchField w = 0)
    (hf : formatOf (opField w) = some (.tableBuild i)) : decode w = .ok i := by
  rw [decode_tableBuild hf hr, if_neg (not_not_intro hv), if_neg (not_not_intro hn)]

/-! ## The tests on `VLS` and `NCH` (R97 (3) and (4)) -/

theorem decode_vector_badVectorLength (hop : (opField w).toNat = 0x0D ∨ (opField w).toNat = 0x0E) (hr : rsvField w = 0)
    (hv : vlsField w = 3) : decode w = .error .badVectorLength := by
  obtain ⟨mk, hf⟩ := formatOf_vector hop
  rw [decode_vector hf hr, if_pos hv]

theorem decode_nonvector_badVectorLength
    (hop : (1 ≤ (opField w).toNat ∧ (opField w).toNat ≤ 0x0C) ∨ (0x10 ≤ (opField w).toNat ∧ (opField w).toNat ≤ 0x12))
    (hr : rsvField w = 0) (hv : vlsField w ≠ 0) : decode w = .error .badVectorLength := by
  obtain hx | ht := hop
  · obtain ⟨mk, hf⟩ := formatOf_expand hx.1 hx.2
    rw [decode_expand hf hr, if_pos hv]
  · obtain ⟨i, hf⟩ := formatOf_tableBuild ht.1 ht.2
    rw [decode_tableBuild hf hr, if_pos hv]

theorem decode_expand_badChunkCount (hlo : 1 ≤ (opField w).toNat) (hhi : (opField w).toNat ≤ 0x0C)
    (hr : rsvField w = 0) (hv : vlsField w = 0) (hn : nchField w = 0) : decode w = .error .badChunkCount := by
  obtain ⟨mk, hf⟩ := formatOf_expand hlo hhi
  rw [decode_expand hf hr, if_neg (not_not_intro hv), if_pos hn]

theorem decode_vector_badChunkCount (hop : (opField w).toNat = 0x0D ∨ (opField w).toNat = 0x0E) (hr : rsvField w = 0)
    (hv : vlsField w ≠ 3) (hn : nchField w = 0) : decode w = .error .badChunkCount := by
  obtain ⟨mk, hf⟩ := formatOf_vector hop
  rw [decode_vector hf hr, if_neg hv, if_pos hn]

theorem decode_tableBuild_badChunkCount (hlo : 0x10 ≤ (opField w).toNat) (hhi : (opField w).toNat ≤ 0x12)
    (hr : rsvField w = 0) (hv : vlsField w = 0) (hn : nchField w ≠ 0) : decode w = .error .badChunkCount := by
  obtain ⟨i, hf⟩ := formatOf_tableBuild hlo hhi
  rw [decode_tableBuild hf hr, if_neg (not_not_intro hv), if_pos hn]

/-! ## The illegal words (R98) -/

theorem not_decodes_of_error {e : DecodeError} (h : decode w = .error e) : ¬∃ i, decode w = .ok i := by
  simp [h]

theorem illegalWord_iff_of_expand (hlo : 1 ≤ (opField w).toNat) (hhi : (opField w).toNat ≤ 0x0C) :
    illegalWord w ↔ rsvField w ≠ 0 ∨ vlsField w ≠ 0 ∨ nchField w = 0 := by
  grind [illegalWord]

theorem illegalWord_iff_of_vector (hop : (opField w).toNat = 0x0D ∨ (opField w).toNat = 0x0E) :
    illegalWord w ↔ rsvField w ≠ 0 ∨ vlsField w = 3 ∨ nchField w = 0 := by
  grind [illegalWord]

theorem illegalWord_iff_of_tableBuild (hlo : 0x10 ≤ (opField w).toNat) (hhi : (opField w).toNat ≤ 0x12) :
    illegalWord w ↔ rsvField w ≠ 0 ∨ vlsField w ≠ 0 ∨ nchField w ≠ 0 := by
  grind [illegalWord]

end Decoded

/-- R98's list is what fails a test of R97: on the words of one format, the fields decide both alike. -/
theorem illegalWord_iff_not_decodes (w : Word) : illegalWord w ↔ ¬∃ i, decode w = .ok i := by
  obtain hu | hop :
      ((opField w).toNat = 0x00 ∨ (opField w).toNat = 0x0F ∨ 0x13 ≤ (opField w).toNat) ∨
      ((1 ≤ (opField w).toNat ∧ (opField w).toNat ≤ 0x0C) ∨
       ((opField w).toNat = 0x0D ∨ (opField w).toNat = 0x0E) ∨
       (0x10 ≤ (opField w).toNat ∧ (opField w).toNat ≤ 0x12)) := by omega
  · exact iff_of_true (by unfold illegalWord; tauto) (not_decodes_of_error (decode_unassigned (formatOf_unassigned hu)))
  by_cases hr : rsvField w = 0
  · obtain ⟨hlo, hhi⟩ | hop | ⟨hlo, hhi⟩ := hop
    · obtain ⟨mk, hf⟩ := formatOf_expand hlo hhi
      rw [illegalWord_iff_of_expand hlo hhi, decode_expand hf hr]
      split_ifs <;> simp_all
    · obtain ⟨mk, hf⟩ := formatOf_vector hop
      rw [illegalWord_iff_of_vector hop, decode_vector hf hr]
      split_ifs <;> simp_all
    · obtain ⟨i, hf⟩ := formatOf_tableBuild hlo hhi
      rw [illegalWord_iff_of_tableBuild hlo hhi, decode_tableBuild hf hr]
      split_ifs <;> simp_all
  · obtain ⟨f, hf⟩ := formatOf_assigned (op := opField w) (by omega)
    exact iff_of_true (.inr (.inr (.inr (.inl hr)))) (not_decodes_of_error (decode_reservedBits hf hr))

/-- The start step of an illegal word on an idle BDX is the report of `F_ILLEGAL` (R98, R284). -/
theorem startCommand_illegal {w : Word} {s : State} (hw : illegalWord w) (hb : s.busy = false) :
    startCommand w s = .next (raiseFault .illegal w (beginCommand w s)) := by
  obtain ⟨e, -, h⟩ | ⟨i, hd, -⟩ := startCommand_idle (w := w) hb
  · exact h
  · exact absurd ⟨i, hd⟩ ((illegalWord_iff_not_decodes w).mp hw)

/-- The step that writes `CMD` on an idle BDX is the start step of the word written (R22, R124). -/
theorem step_writeCmd_idle {w : Word} {s : State} {rest : List Event} (hb : s.busy = false)
    (he : s.events = .writeReg .cmd w :: rest) : step s = startCommand w { s with events := rest } := by
  simp [step_cons he, takeEvent, writeReg, hb]

/-! ## The statements -/

/-- Settles O4: the opcode gives the format, the format says which test of `VLS` and `NCH` applies. -/
theorem decodeTestsTheWordInOrder : Obligations.DecodeTestsTheWordInOrder := by
  intro w op vls rsv nch assigned vector
  refine ⟨fun hop => ?_, fun hop hr => ?_, fun _ hr hop hv => ?_, fun hop hr hnv hv => ?_,
    fun hop hr hpass hhi hn => ?_, fun hop hr hpass hlo hn => ?_, fun hr hv hn => ?_, fun hr hv hn => ?_,
    fun hr hv hn => ?_⟩
  · exact decode_unassigned (formatOf_unassigned (show op = _ ∨ op = _ ∨ _ ≤ op by omega))
  · obtain ⟨f, hf⟩ := formatOf_assigned hop
    exact decode_reservedBits hf hr
  · exact decode_vector_badVectorLength hop hr hv
  · exact decode_nonvector_badVectorLength (show (1 ≤ op ∧ op ≤ _) ∨ (_ ≤ op ∧ op ≤ _) by omega) hr hv
  · obtain ⟨hvec, hv⟩ | ⟨hnv, hv⟩ := hpass
    · exact decode_vector_badChunkCount hvec hr hv hn
    · exact decode_expand_badChunkCount (show 1 ≤ op by omega) (show op ≤ _ by omega) hr hv hn
  · obtain ⟨hvec, -⟩ | ⟨-, hv⟩ := hpass
    · omega
    · exact decode_tableBuild_badChunkCount hlo (show op ≤ _ by omega) hr hv hn
  · have ok {mk} : formatOf (opField w) = some (.expand mk) → decode w = .ok (mk nch) := decode_expand_ok hr hv hn
    refine ⟨?_, ?_, ?_, ?_, ?_, ?_, ?_, ?_, ?_, ?_, ?_, ?_⟩ <;> intro hop <;> exact ok (formatOf_of_toNat hop)
  · have ok {mk} : formatOf (opField w) = some (.vector mk) → decode w = .ok (mk vls nch) := decode_vector_ok hr hv hn
    exact ⟨fun hop => ok (formatOf_of_toNat hop), fun hop => ok (formatOf_of_toNat hop)⟩
  · have ok {i} : formatOf (opField w) = some (.tableBuild i) → decode w = .ok i := decode_tableBuild_ok hr hv hn
    exact ⟨fun hop => ok (formatOf_of_toNat hop), fun hop => ok (formatOf_of_toNat hop),
      fun hop => ok (formatOf_of_toNat hop)⟩

/-- Settles O5: R98's list is what the decoder refuses, and the start step of a refused word only reports it. -/
theorem illegalWordsFaultAndDoNothingElse : Obligations.IllegalWordsFaultAndDoNothingElse := by
  refine ⟨illegalWord_iff_not_decodes, .inl rfl, fun w s rest hw hb he => ?_⟩
  calc step s
    _ = startCommand w { s with events := rest } := step_writeCmd_idle hb he
    _ = .next (raiseFault .illegal w (beginCommand w { s with events := rest })) := startCommand_illegal hw hb

end Sys2Proof.Machine
end

section
/-! SUPPORT. The transform read bit by bit and as a number: `spread`, `dbl`, the big-endian packing and `expand` by their bits;
with these, the statements on the transform (spec 40_command_and_oracle.md R120 to R123). -/

namespace Sys2Proof.Machine

/-! ## A loop over bit positions, as R120, R132 and R151 run it -/

/-- A loop that ORs `f b` into its result for every chosen `b` has the bits of the chosen `f b`. -/
theorem getLsbD_orFold {T : Nat} (p : Nat → Prop) [DecidablePred p] (f : Nat → BitVec T) (n j : Nat) :
    ((List.range n).foldl (fun r b => if p b then r ||| f b else r) 0#T).getLsbD j = true ↔
      ∃ b < n, p b ∧ (f b).getLsbD j = true := by
  induction n with
  | zero => simp
  | succ n ih =>
    rw [List.range_succ, List.foldl_append, List.foldl_cons, List.foldl_nil]
    simp only [Nat.lt_succ_iff_lt_or_eq, or_and_right, exists_or, exists_eq_left]
    by_cases hp : p n
    · rw [if_pos hp, BitVec.getLsbD_or, Bool.or_eq_true, ih]
      simp [hp]
    · rw [if_neg hp, ih]
      simp [hp]

/-! ## `spread` and `dbl` by their bits (R120, R121) -/

section Bits
variable {N : Nat} (T : Nat) (v : BitVec N) (j : Nat)

/-- `spread` bit by bit (R120), at any width of the result. -/
theorem getLsbD_spread : (spread T v).getLsbD j = (decide (j < T) && decide (j % 2 = 0) && v.getLsbD (j / 2)) := by
  rw [Bool.eq_iff_iff, spread, getLsbD_orFold]
  simp only [BitVec.getLsbD_shiftLeft, BitVec.getLsbD_one, Bool.and_eq_true, Bool.not_eq_true', decide_eq_true_eq,
    decide_eq_false_iff_not]
  constructor
  · rintro ⟨b, -, hv, ⟨hj, hlo⟩, -, hhi⟩
    obtain rfl : j = 2 * b := by omega
    exact ⟨⟨hj, by omega⟩, by rwa [Nat.mul_div_cancel_left b two_pos]⟩
  · rintro ⟨⟨hj, heven⟩, hv⟩
    exact ⟨j / 2, BitVec.lt_of_getLsbD hv, hv, ⟨hj, by omega⟩, by omega, by omega⟩

/-- `dbl` bit by bit (R121), at any width of the result: bit `j` is bit `j / 2`. -/
theorem getLsbD_dbl : (dbl T v).getLsbD j = (decide (j < T) && v.getLsbD (j / 2)) := by
  rw [dbl, BitVec.getLsbD_or, BitVec.getLsbD_shiftLeft, getLsbD_spread, getLsbD_spread]
  obtain ⟨b, rfl | rfl⟩ : ∃ b, j = 2 * b ∨ j = 2 * b + 1 := ⟨j / 2, by omega⟩
  · have hodd : 0 < b → (2 * b - 1) % 2 ≠ 0 := by omega
    rcases Nat.eq_zero_or_pos b with rfl | hb
    · simp
    · simp [hodd hb]
  · have hb : (2 * b + 1) / 2 = b := by omega
    by_cases hT : 2 * b + 1 < T
    · simp [hb, hT, show 2 * b < T by omega]
    · simp [hT]

end Bits

/-- `dbl` of a concatenation (R123 (b)). -/
theorem dbl_append (S : Nat) {M N : Nat} (a : BitVec M) (b : BitVec N) :
    dbl (S + 2 * N) (a ++ b) = dbl S a ++ dbl (2 * N) b := by
  refine BitVec.eq_of_getLsbD_eq fun j hj => ?_
  rw [BitVec.getLsbD_append]
  simp only [getLsbD_dbl, BitVec.getLsbD_append]
  by_cases h : j < 2 * N
  · simp [h, hj, show j / 2 < N by omega]
  · rw [if_neg h, if_neg (show ¬j / 2 < N by omega), show (j - 2 * N) / 2 = j / 2 - N by omega]
    simp [hj, show j - 2 * N < S by omega]

/-- `dbl` of a byte is `dbl` of its nibbles (R123 (c)). -/
theorem dbl_nibbles (v : Byte) : dbl 16 v = dbl 8 (highNibble v) ++ dbl 8 (lowNibble v) := by
  have hv : highNibble v ++ lowNibble v = v :=
    (BitVec.extractLsb'_append_extractLsb'_eq_extractLsb' rfl).trans BitVec.extractLsb'_eq_self
  calc dbl 16 v
    _ = dbl (8 + 2 * 4) (highNibble v ++ lowNibble v) := by rw [hv]
    _ = dbl 8 (highNibble v) ++ dbl 8 (lowNibble v) := dbl_append 8 _ _

theorem dbl_zero (T N : Nat) : dbl T 0#N = 0#T :=
  BitVec.eq_of_getLsbD_eq fun j _ => by simp [getLsbD_dbl]

theorem dbl_allOnes (N : Nat) : dbl (2 * N) (BitVec.allOnes N) = BitVec.allOnes (2 * N) :=
  BitVec.eq_of_getLsbD_eq fun j hj => by simp [getLsbD_dbl, hj, show j / 2 < N by omega]

/-- `dbl` loses no bit (R123 (e)): bit `b` of the value is bit `2b` of the result. -/
theorem dbl_injective {N : Nat} {a b : BitVec N} (h : dbl (2 * N) a = dbl (2 * N) b) : a = b :=
  BitVec.eq_of_getLsbD_eq fun j hj => by
    have hbit := congrArg (BitVec.getLsbD · (2 * j)) h
    simp only [getLsbD_dbl, show 2 * j < 2 * N by omega] at hbit
    simpa using hbit

theorem dbl_or (T : Nat) {N : Nat} (a b : BitVec N) : dbl T (a ||| b) = dbl T a ||| dbl T b :=
  BitVec.eq_of_getLsbD_eq fun j hj => by simp only [BitVec.getLsbD_or, getLsbD_dbl, hj, decide_true, Bool.true_and]

theorem dbl_and (T : Nat) {N : Nat} (a b : BitVec N) : dbl T (a &&& b) = dbl T a &&& dbl T b :=
  BitVec.eq_of_getLsbD_eq fun j hj => by simp only [BitVec.getLsbD_and, getLsbD_dbl, hj, decide_true, Bool.true_and]

/-! ## `spread` and `dbl` as numbers (R120, R123 (a)) -/

/-- The sum of `2^(2b)` over the set bits `b` below `n` (R120). -/
def spreadSum {N : Nat} (v : BitVec N) (n : Nat) : Nat :=
  ((List.range n).map fun b => if v.getLsbD b then 2 ^ (2 * b) else 0).sum

theorem spreadSum_succ {N : Nat} (v : BitVec N) (n : Nat) :
    spreadSum v (n + 1) = spreadSum v n + if v.getLsbD n then 2 ^ (2 * n) else 0 :=
  List.sum_range_succ _ n

/-- Three times the sum still fits into `2n` bits. -/
theorem three_mul_spreadSum_lt {N : Nat} (v : BitVec N) (n : Nat) : 3 * spreadSum v n < 2 ^ (2 * n) := by
  induction n with
  | zero => simp [spreadSum]
  | succ n ih =>
    rw [spreadSum_succ, show 2 * (n + 1) = 2 * n + 2 from rfl, Nat.pow_add]
    split <;> omega

/-- The loop of `spread` adds up the same powers: each bit it sets lies above all it has set before. -/
theorem toNat_spreadLoop {T N : Nat} (v : BitVec N) {n : Nat} (h : 2 * n ≤ T) :
    ((List.range n).foldl (fun r b => if v.getLsbD b then r ||| (1#T <<< (2 * b)) else r) 0#T).toNat = spreadSum v n := by
  induction n with
  | zero => simp [spreadSum]
  | succ n ih =>
    rw [List.range_succ, List.foldl_append, List.foldl_cons, List.foldl_nil, spreadSum_succ]
    split
    · have hlt : 2 ^ (2 * n) < 2 ^ T := Nat.pow_lt_pow_right one_lt_two (by omega)
      have hbit : (1#T <<< (2 * n)).toNat = 2 ^ (2 * n) := by
        rw [← BitVec.twoPow_eq, BitVec.toNat_twoPow, Nat.mod_eq_of_lt hlt]
      have hsum : spreadSum v n < 2 ^ (2 * n) := by have := three_mul_spreadSum_lt v n; omega
      rw [BitVec.toNat_or, ih (by omega), hbit, Nat.or_comm, Nat.add_comm]
      simpa using (Nat.two_pow_add_eq_or_of_lt hsum 1).symm
    · exact ih (by omega)

theorem toNat_spread {N : Nat} (v : BitVec N) : (spread (2 * N) v).toNat = spreadSum v N :=
  toNat_spreadLoop v le_rfl

/-- `dbl` is three times `spread`: the two copies of the bits share no position, and the shift loses none (R123 (a)). -/
theorem toNat_dbl {N : Nat} (v : BitVec N) : (dbl (2 * N) v).toNat = 3 * (spread (2 * N) v).toNat := by
  have hdisjoint : spread (2 * N) v &&& (spread (2 * N) v <<< 1) = 0#(2 * N) :=
    BitVec.eq_of_getLsbD_eq fun j hj => by
      simp only [BitVec.getLsbD_and, BitVec.getLsbD_shiftLeft, getLsbD_spread, BitVec.getLsbD_zero]
      rcases Nat.mod_two_eq_zero_or_one j with h | h
      · by_cases h0 : j < 1
        · simp [h0]
        · simp [show (j - 1) % 2 ≠ 0 by omega]
      · simp [h]
  have hshift : (spread (2 * N) v <<< 1).toNat = 2 * (spread (2 * N) v).toNat := by
    have hlt := three_mul_spreadSum_lt v N
    rw [← toNat_spread] at hlt
    rw [BitVec.toNat_shiftLeft, Nat.shiftLeft_eq, Nat.mod_eq_of_lt (by omega)]
    omega
  rw [dbl, ← BitVec.add_eq_or_of_and_eq_zero _ _ hdisjoint, BitVec.toNat_add_of_and_eq_zero hdisjoint, hshift]
  omega

/-- A concatenation as a number. -/
theorem toNat_append_eq {m n : Nat} (x : BitVec m) (y : BitVec n) : (x ++ y).toNat = x.toNat * 2 ^ n + y.toNat := by
  rw [BitVec.toNat_append, ← Nat.shiftLeft_add_eq_or_of_lt y.isLt, Nat.shiftLeft_eq]

/-! ## The packing (R14, R61) -/

theorem packBE_append (T : Nat) (bs : List Byte) (b : Byte) :
    packBE T (bs ++ [b]) = (packBE T bs <<< 8) ||| b.setWidth T := by
  rw [packBE, List.foldl_append]
  rfl

/-- A group of one byte is that byte. -/
@[simp] theorem packBE_singleton (b : Byte) : packBE 8 [b] = b := by
  simp [packBE]

/-- A packed group bit by bit: bits 7:0 are the last byte's, bits 15:8 those of the byte before it, and so on. -/
theorem getLsbD_packBE (T : Nat) (bs : List Byte) (j : Nat) :
    (packBE T bs).getLsbD j = (decide (j < T) && (bs.reverse.getD (j / 8) 0).getLsbD (j % 8)) := by
  induction bs using List.reverseRecOn generalizing j with
  | nil => simp [packBE]
  | append_singleton bs b ih =>
    rw [packBE_append, BitVec.getLsbD_or, BitVec.getLsbD_shiftLeft, BitVec.getLsbD_setWidth, ih, List.reverse_append,
      List.reverse_singleton, List.singleton_append]
    by_cases h8 : j < 8
    · simp [h8, Nat.div_eq_of_lt h8, Nat.mod_eq_of_lt h8]
    · obtain ⟨i, rfl⟩ : ∃ i, j = i + 8 := ⟨j - 8, by omega⟩
      by_cases hT : i + 8 < T
      · simp [hT, show i < T by omega]
      · simp [hT]

/-- Byte `i` of an unpacked word. -/
theorem getElem_unpackBE {n T : Nat} (w : BitVec T) {i : Nat} (h : i < (unpackBE n w).length) :
    (unpackBE n w)[i] = w.extractLsb' (8 * (n - 1 - i)) 8 := by
  simp [unpackBE]

/-- The two bytes of a 16-bit word, the high one first. -/
theorem unpackBE_two (w : BitVec 16) : unpackBE 2 w = [w.extractLsb' 8 8, w.extractLsb' 0 8] := rfl

/-! ## `expand` (R122) -/

/-- `expand` of one byte is its doubled word. -/
theorem expand_singleton (b : Byte) : expand [b] = unpackBE 2 (dbl 16 b) := List.append_nil _

/-- `expand` goes byte by byte. -/
theorem expand_eq_flatMap (bs : List Byte) : expand bs = bs.flatMap fun v => unpackBE 2 (dbl 16 v) := by
  induction bs with
  | nil => rfl
  | cons v bs ih => rw [expand, ih, List.flatMap_cons]

theorem expand_append (as bs : List Byte) : expand (as ++ bs) = expand as ++ expand bs := by
  simp only [expand_eq_flatMap, List.flatMap_append]

/-- The two output bytes of input byte `i` (R122). -/
theorem getD_expand {bs : List Byte} {i : Nat} (h : i < bs.length) :
    (expand bs).getD (2 * i) 0 = (dbl 16 (bs.getD i 0)).extractLsb' 8 8 ∧
    (expand bs).getD (2 * i + 1) 0 = (dbl 16 (bs.getD i 0)).extractLsb' 0 8 := by
  induction bs generalizing i with
  | nil => simp at h
  | cons v bs ih =>
    rw [expand, unpackBE_two]
    cases i with
    | zero => exact ⟨rfl, rfl⟩
    | succ i => exact ih (Nat.lt_of_succ_lt_succ h)

/-- The bits of the high and of the low byte of a doubled byte. -/
theorem getLsbD_dbl_bytes (v : Byte) {j : Nat} (hj : j < 8) :
    ((dbl 16 v).extractLsb' 8 8).getLsbD j = v.getLsbD (4 + j / 2) ∧
    ((dbl 16 v).extractLsb' 0 8).getLsbD j = v.getLsbD (j / 2) := by
  simp only [BitVec.getLsbD_extractLsb', getLsbD_dbl, hj, show 8 + j < 16 by omega, show j < 16 by omega,
    show (8 + j) / 2 = 4 + j / 2 by omega, Nat.zero_add, decide_true, Bool.true_and, and_self]

/-- Every bit of `expand` (R122): byte `i` has the bits of the high nibble of input byte `i / 2` where `i` is even, and of the
low nibble where it is odd. -/
theorem getLsbD_getD_expand {bs : List Byte} {i j : Nat} (hi : i < 2 * bs.length) (hj : j < 8) :
    ((expand bs).getD i 0).getLsbD j = (bs.getD (i / 2) 0).getLsbD (4 * (1 - i % 2) + j / 2) := by
  obtain ⟨k, rfl | rfl⟩ : ∃ k, i = 2 * k ∨ i = 2 * k + 1 := ⟨i / 2, by omega⟩
  · rw [(getD_expand (by omega)).1, (getLsbD_dbl_bytes _ hj).1, show 2 * k / 2 = k by omega,
      show 4 * (1 - 2 * k % 2) = 4 by omega]
  · rw [(getD_expand (by omega)).2, (getLsbD_dbl_bytes _ hj).2, show (2 * k + 1) / 2 = k by omega,
      show 4 * (1 - (2 * k + 1) % 2) + j / 2 = j / 2 by omega]

/-- `dbl` of a packed group is the expansion of the group (R123 (c)): both sides have the same bits. -/
theorem unpackBE_dbl_packBE {bs : List Byte} {n : Nat} (hn : bs.length = n) :
    unpackBE (2 * n) (dbl (16 * n) (packBE (8 * n) bs)) = expand bs := by
  subst hn
  refine List.ext_getElem (by simp) fun i hi hi' => BitVec.eq_of_getLsbD_eq fun j hj => ?_
  rw [unpackBE_length] at hi
  have hrev : ∀ k < bs.length, bs.reverse.getD k 0 = bs.getD (bs.length - 1 - k) 0 := fun k hk => by
    rw [List.getD_eq_getElem?_getD, List.getD_eq_getElem?_getD, List.getElem?_reverse hk]
  rw [← List.getD_eq_getElem _ 0 hi', getLsbD_getD_expand hi hj, getElem_unpackBE, BitVec.getLsbD_extractLsb',
    getLsbD_dbl, getLsbD_packBE, hrev _ (by omega)]
  have hbyte : bs.length - 1 - (8 * (2 * bs.length - 1 - i) + j) / 2 / 8 = i / 2 := by omega
  have hbit : (8 * (2 * bs.length - 1 - i) + j) / 2 % 8 = 4 * (1 - i % 2) + j / 2 := by omega
  simp [hbyte, hbit, hj, show 8 * (2 * bs.length - 1 - i) + j < 16 * bs.length by omega,
    show (8 * (2 * bs.length - 1 - i) + j) / 2 < 8 * bs.length by omega]

/-! ## The statements -/

/-- Settles O21: the loop sets the even positions only, each above those before it. -/
theorem spreadPutsBitsAtEvenPositions : Obligations.SpreadPutsBitsAtEvenPositions := by
  refine fun N v => ⟨fun b hb => ⟨?_, ?_⟩, toNat_spread v⟩
  · rw [getLsbD_spread]
    simp [hb]
  · rw [getLsbD_spread]
    simp

/-- Settles O22: bit `j` of `dbl` is bit `j / 2`. -/
theorem dblRepeatsEveryBit : Obligations.DblRepeatsEveryBit := by
  refine ⟨fun N v => ⟨fun b hb => ⟨?_, ?_⟩, rfl⟩, by decide⟩
  · rw [getLsbD_dbl]
    simp [hb]
  · rw [getLsbD_dbl, show (2 * b + 1) / 2 = b by omega]
    simp [show 2 * b + 1 < 2 * N by omega]

/-- Settles O23: (a) as numbers, the laws of `dbl` by its bits, and (b) for `spread` as a third of `dbl`. -/
theorem lawsOfDblAndSpread : Obligations.LawsOfDblAndSpread := by
  refine ⟨fun N v => toNat_dbl v, fun M N a b => ?_, fun bs => ?_, dbl_nibbles,
    fun N => ⟨dbl_zero _ N, dbl_allOnes N⟩, fun N a b => ⟨dbl_injective, dbl_or _ a b, dbl_and _ a b⟩⟩
  · have hdbl : (dbl (2 * (M + N)) (a ++ b)).toNat = (dbl (2 * M) a).toNat * 2 ^ (2 * N) + (dbl (2 * N) b).toNat := by
      rw [Nat.mul_add, dbl_append, toNat_append_eq]
    refine ⟨hdbl, ?_⟩
    rw [toNat_dbl, toNat_dbl, toNat_dbl] at hdbl
    linarith
  · exact (unpackBE_dbl_packBE rfl).trans (expand_eq_flatMap bs)

/-- Settles O24: the bytes of `expand` are those of the doubled bytes, and so are its bits. -/
theorem expandDoublesEveryBitInOrder : Obligations.ExpandDoublesEveryBitInOrder := by
  refine ⟨rfl, fun bs => ⟨expand_length_eq bs, fun i hi => ⟨(getD_expand hi).1, (getD_expand hi).2, fun b h4 h7 => ?_,
    fun b h3 => ?_⟩⟩⟩
  · rw [(getD_expand hi).1, (getLsbD_dbl_bytes _ (by omega)).1, (getLsbD_dbl_bytes _ (by omega)).1]
    exact ⟨congrArg _ (by omega), congrArg _ (by omega)⟩
  · rw [(getD_expand hi).2, (getLsbD_dbl_bytes _ (by omega)).2, (getLsbD_dbl_bytes _ (by omega)).2]
    exact ⟨congrArg _ (by omega), congrArg _ (by omega)⟩

end Sys2Proof.Machine
end

section
/-! SUPPORT. Every kernel's formula computes bit doubling: the scalar loop and the ladder by their bits, the multiply and
masked-square formulas, the table lookups and the lane operations by `dbl_8`; with these, the statement that every block is the
expansion of its group (spec 40_command_and_oracle.md R131). -/

namespace Sys2Proof.Machine

/-! ## The scalar loop (R132) -/

/-- The two bits that the scalar loop sets for bit `b` are those that `b / 2` names. -/
theorem scalarLoop_eq_dbl (v : Byte) : scalarLoop v = dbl 16 v := by
  refine BitVec.eq_of_getLsbD_eq fun j hj => ?_
  have hpair : ∀ k, (0b11#16).getLsbD k = decide (k < 2) := fun k => by
    rw [show 0b11#16 = (BitVec.allOnes 2).setWidth 16 from rfl, BitVec.getLsbD_setWidth, BitVec.getLsbD_allOnes]
    grind
  rw [Bool.eq_iff_iff, scalarLoop, getLsbD_orFold, getLsbD_dbl]
  simp only [BitVec.getLsbD_shiftLeft, hpair, hj, Bool.and_eq_true, Bool.not_eq_true', decide_eq_true_eq,
    decide_eq_false_iff_not, true_and]
  constructor
  · rintro ⟨b, -, hv, hlo, hhi⟩
    rwa [show j / 2 = b by omega]
  · exact fun hv => ⟨j / 2, by omega, hv, by omega, by omega⟩

/-! ## The ladder (R151 to R154) -/

/-- `ALT(T, W)` bit by bit (R151). -/
theorem getLsbD_alt (T W b : Nat) : (alt T W).getLsbD b = (decide (b < T) && decide (b / W % 2 = 0)) := by
  rw [Bool.eq_iff_iff, alt, getLsbD_orFold]
  simp only [← BitVec.twoPow_eq, BitVec.getLsbD_twoPow, Bool.and_eq_true, decide_eq_true_eq]
  constructor
  · rintro ⟨k, hk, hmask, -, rfl⟩
    exact ⟨hk, hmask⟩
  · exact fun ⟨hb, hmask⟩ => ⟨b, hb, hmask, hb, rfl⟩

/-- `x` holds the bits of `v` in runs of `W`, each run followed by `W` zeros: what the ladder has reached after the step of
width `W` (R153). -/
def SpacedBy (W : Nat) {N T : Nat} (v : BitVec N) (x : BitVec T) : Prop :=
  ∀ q r, r < W → W * q + r < T → x.getLsbD (W * q + r) = (decide (q % 2 = 0) && v.getLsbD (W * (q / 2) + r))

section Ladder
variable {N T : Nat} {v : BitVec N} {x : BitVec T}

/-- Before the first step the whole value is one run. -/
theorem spacedBy_setWidth (v : BitVec N) : SpacedBy N v (v.setWidth (2 * N)) := by
  intro q r hr hT
  have hq : q < 2 := Nat.lt_of_mul_lt_mul_left (a := N) (by omega)
  rw [BitVec.getLsbD_setWidth, decide_eq_true hT]
  obtain rfl | rfl : q = 0 ∨ q = 1 := by omega
  · simp
  · simp

/-- Where runs of `2 * W` stand, the lower halves of the even ones are where runs of `W` have them. -/
theorem SpacedBy.stays {W p r : Nat} (h : SpacedBy (2 * W) v x) (hr : r < W) (hT : W * (2 * p) + r < T) :
    x.getLsbD (W * (2 * p) + r) = (decide (p % 2 = 0) && v.getLsbD (W * p + r)) := by
  have hpos : W * (2 * p) + r = 2 * W * p + r := by ring
  rw [hpos, h p r (by omega) (hpos ▸ hT)]
  obtain ⟨a, rfl | rfl⟩ : ∃ a, p = 2 * a ∨ p = 2 * a + 1 := ⟨p / 2, by omega⟩
  · rw [Nat.mul_div_cancel_left a two_pos, show 2 * W * a + r = W * (2 * a) + r by ring]
  · simp [show (2 * a + 1) % 2 = 1 by omega]

/-- Moved up by `W`, the upper halves are where runs of `W` have them too. -/
theorem SpacedBy.moves {W p r : Nat} (h : SpacedBy (2 * W) v x) (hr : r < W) (hT : W * (2 * p) + r < T) :
    (x <<< W).getLsbD (W * (2 * p) + r) = (decide (p % 2 = 1) && v.getLsbD (W * p + r)) := by
  rw [BitVec.getLsbD_shiftLeft, decide_eq_true hT, Bool.true_and]
  rcases p with _ | m
  · simp [hr]
  · have hpos : W * (2 * (m + 1)) + r = 2 * W * m + (W + r) + W := by ring
    have hhigh : ¬W * (2 * (m + 1)) + r < W := by omega
    rw [decide_eq_false hhigh, Bool.not_false, Bool.true_and, hpos, Nat.add_sub_cancel, h m (W + r) (by omega) (by omega)]
    obtain ⟨a, rfl | rfl⟩ : ∃ a, m = 2 * a ∨ m = 2 * a + 1 := ⟨m / 2, by omega⟩
    · rw [Nat.mul_div_cancel_left a two_pos, show 2 * W * a + (W + r) = W * (2 * a + 1) + r by ring]
      simp [show (2 * a + 1) % 2 = 1 by omega]
    · simp [show (2 * a + 1) % 2 = 1 by omega, show (2 * a + 1 + 1) % 2 = 0 by omega]

/-- A step of the ladder halves the runs (R152): of each, the lower half stays and the upper half moves up by `W`. -/
theorem SpacedBy.step {W : Nat} (h : SpacedBy (2 * W) v x) : SpacedBy W v (ladderStep x W) := by
  intro q r hr hT
  have hmask : (W * q + r) / W = q := by
    rw [Nat.mul_add_div (by omega), Nat.div_eq_of_lt hr, Nat.add_zero]
  rw [ladderStep, BitVec.getLsbD_and, BitVec.getLsbD_or, getLsbD_alt, hmask, decide_eq_true hT, Bool.true_and]
  obtain ⟨p, rfl | rfl⟩ : ∃ p, q = 2 * p ∨ q = 2 * p + 1 := ⟨q / 2, by omega⟩
  · rw [h.stays hr hT, h.moves hr hT, Nat.mul_div_cancel_left p two_pos]
    obtain hp | hp := Nat.mod_two_eq_zero_or_one p <;> simp [hp]
  · simp [show (2 * p + 1) % 2 = 1 by omega]

/-- The whole ladder leaves runs of one bit (R153). -/
theorem SpacedBy.ladder {j : Nat} (h : SpacedBy (2 ^ j) v x) :
    SpacedBy 1 v ((ladderWidths j).foldl ladderStep x) := by
  induction j generalizing x with
  | zero => exact h
  | succ j ih => exact ih (SpacedBy.step (by rwa [← Nat.pow_succ']))

/-- Runs of one bit, each followed by a zero, are `spread` (R120). -/
theorem SpacedBy.eq_spread (h : SpacedBy 1 v x) : x = spread T v :=
  BitVec.eq_of_getLsbD_eq fun j hj => by
    have hbit := h j 0 one_pos (by omega)
    simp only [Nat.one_mul, Nat.add_zero] at hbit
    rw [hbit, getLsbD_spread, decide_eq_true hj, Bool.true_and]

end Ladder

/-- The ladder computes `dbl` at every power of two (R154). -/
theorem opt_eq_dbl {j N : Nat} (hN : N = 2 ^ j) (v : BitVec N) : opt j (2 * N) v = dbl (2 * N) v := by
  subst hN
  have hladder := (spacedBy_setWidth v).ladder.eq_spread
  simp only [opt, hladder, dbl]

/-! ## The multiply and masked-square formulas (R164, R167, R173): their inputs are 8 and 4 bits, so they are run -/

theorem mul1_eq_dbl : ∀ v : Byte, mul1 v = dbl 16 v := by decide +kernel

theorem mul2Nibble_eq_dbl : ∀ n : BitVec 4, mul2Nibble n = dbl 8 n := by decide +kernel

theorem square3_eq_dbl : ∀ v : Byte, square3 v = dbl 16 v := by decide +kernel

theorem square4_eq_dbl : ∀ v : Byte, square4 v = dbl 16 v := by decide +kernel

theorem mul2_eq_dbl (v : Byte) : mul2 v = dbl 16 v := by
  rw [mul2, mul2Nibble_eq_dbl, mul2Nibble_eq_dbl, dbl_nibbles]

/-! ## Blocks from formulas -/

/-- A formula that computes `dbl_8` gives the expansion of a group of one byte. -/
theorem block_of_formula {f : Byte → BitVec 16} (hf : ∀ v, f v = dbl 16 v) (b : Byte) :
    unpackBE 2 (f (packBE 8 [b])) = expand [b] := by
  rw [hf, packBE_singleton, expand_singleton]

theorem blockXscl_eq_expand (s : State) (b : Byte) : blockXscl s [b] = expand [b] :=
  block_of_formula scalarLoop_eq_dbl b

/-- A ladder of `8 * n` bits gives the expansion of a group of `n` bytes (R156 to R159). -/
theorem block_of_ladder {j n : Nat} (hj : 8 * n = 2 ^ j) {v : List Byte} (hv : v.length = n) :
    unpackBE (2 * n) (opt j (2 * (8 * n)) (packBE (8 * n) v)) = expand v := by
  rw [opt_eq_dbl hj, ← unpackBE_dbl_packBE hv, ← Nat.mul_assoc]

/-! ## The lookup kernels (R199 to R201) -/

/-- The doubled nibbles of a byte are the two bytes of its doubled word (R123 (c)). -/
theorem dbl_nibbles_eq_unpackBE (v : Byte) : [dbl 8 (highNibble v), dbl 8 (lowNibble v)] = unpackBE 2 (dbl 16 v) := by
  rw [unpackBE_two, dbl_nibbles, BitVec.extractLsb'_append_eq_left, BitVec.extractLsb'_append_eq_right]

/-- With `T4` built, XLUT4's block is the expansion of any bytes. -/
theorem blockXlut4_eq_expand {s : State} (h4 : ∀ k, readT4 s k = dbl 8 k) (v : List Byte) :
    blockXlut4 s v = expand v := by
  simp only [blockXlut4, h4, dbl_nibbles_eq_unpackBE, expand_eq_flatMap]

/-- The entry of the key `0x00 : byte` has the doubled byte in its low half (R201). -/
theorem dbl_setWidth_low (b : Byte) : (dbl 32 (b.setWidth 16)).extractLsb' 0 16 = dbl 16 b :=
  BitVec.eq_of_getLsbD_eq fun j hj => by
    simp only [BitVec.getLsbD_extractLsb', getLsbD_dbl, BitVec.getLsbD_setWidth, Nat.zero_add, hj,
      show j < 32 by omega, show j / 2 < 16 by omega, decide_true, Bool.true_and]

/-- With `T16` built, XLUT16's block is the expansion of a pair and of a single byte. -/
theorem blockXlut16_eq_expand {s : State} (h16 : ∀ k, readT16 s k = dbl 32 k) {v : List Byte}
    (hv : v.length = 1 ∨ v.length = 2) : blockXlut16 s v = expand v := by
  obtain h1 | h2 := hv
  · obtain ⟨b, rfl⟩ := List.length_eq_one_iff.mp h1
    rw [blockXlut16, h16, dbl_setWidth_low, expand_singleton]
  · obtain ⟨a, b, rfl⟩ := List.length_eq_two.mp h2
    rw [blockXlut16, h16]
    · exact unpackBE_dbl_packBE (n := 2) h2
    · simp

/-! ## The vector kernels (R234, R237) -/

/-- Every vector is a whole number of blocks of 16 lanes (R93). -/
theorem sixteen_dvd_laneCount (vls : BitVec 2) : 16 ∣ laneCount vls := Nat.dvd_mul_right 16 _

/-- No vector is a single byte (R93). -/
theorem ne_laneCount_of_length_one {v : List Byte} (h : v.length = 1) (vls : BitVec 2) : v.length ≠ laneCount vls := by
  have := sixteen_dvd_laneCount vls
  omega

/-- The bit interleave of a register with itself is its expansion, under both readings (R228, D24). -/
theorem bzipLanes_eq_expand (r : Config.Reading) (v : List Byte) : bzipLanes r v v = expand v := by
  induction v with
  | nil => rfl
  | cons b v ih => rw [bzipLanes, ih, bzip_self, expand, unpackBE_two]; rfl

/-- The body step of XVZIP computes the expansion of its vector (R234). -/
theorem bodyXvzip_eq_expand (r : Config.Reading) (nb : Nat) (v : List Byte) : bodyXvzip r nb v = expand v := by
  simp only [bodyXvzip, vbziplo, vbziphi, bzipLanes_eq_expand]
  rw [← expand_append, List.take_append_drop]

theorem blockXvzip_eq_expand (s : State) {vls : BitVec 2} {v : List Byte}
    (hv : v.length = 1 ∨ v.length = laneCount vls) : blockXvzip vls s v = expand v := by
  obtain h1 | hnb := hv
  · obtain ⟨b, rfl⟩ := List.length_eq_one_iff.mp h1
    rw [blockXvzip, if_neg (ne_laneCount_of_length_one h1 vls), blockXscl_eq_expand]
  · rw [blockXvzip, if_pos hnb, bodyXvzip_eq_expand]

/-- Two registers computed lane by lane from one, interleaved: the pairs in lane order (R227). -/
theorem zipLanes_map (f g : Byte → Byte) (v : List Byte) :
    zipLanes (v.map f) (v.map g) = v.flatMap fun x => [f x, g x] := by
  induction v with
  | nil => rfl
  | cons b v ih => rw [List.map_cons, List.map_cons, zipLanes, ih]; rfl

/-- The lower and the upper half of the interleave, one after the other (R227). -/
theorem vzip_map (nb : Nat) (f g : Byte → Byte) (v : List Byte) :
    vziplo nb (v.map f) (v.map g) ++ vziphi nb (v.map f) (v.map g) = v.flatMap fun x => [f x, g x] := by
  simp only [vziplo, vziphi, ← List.map_take, ← List.map_drop, zipLanes_map]
  rw [← List.flatMap_append, List.take_append_drop]

/-- The mask of R237 keeps the low nibble of a lane. -/
theorem lowNibble_and (x : Byte) : lowNibble (x &&& 0x0F) = lowNibble x := by
  rw [lowNibble, BitVec.extractLsb'_and, show BitVec.extractLsb' 0 4 (0x0F : Byte) = BitVec.allOnes 4 from rfl,
    BitVec.and_allOnes, lowNibble]

/-- The shift of R237 brings the high nibble of a lane down. -/
theorem lowNibble_shiftRight (x : Byte) : lowNibble (x >>> 4) = highNibble x :=
  BitVec.eq_of_getLsbD_eq fun j hj => by simp [lowNibble, highNibble, BitVec.getLsbD_ushiftRight]

/-- With `T4` built and `VT` loaded with its entries, the lookup doubles the low nibble of every lane, under both readings (R226,
D23). -/
theorem vtbl16_eq_dbl {s : State} {nb : Nat} (hnb : 16 ∣ nb) (h4 : ∀ k, readT4 s k = dbl 8 k)
    (hvt : ∀ j < nb, vtLane s j = readT4 s (BitVec.ofNat 4 j)) {idx : List Byte} (hidx : idx.length = nb) :
    vtbl16 s idx = idx.map fun x => dbl 8 (lowNibble x) := by
  have hrepeats : ∀ j < idx.length, vtLane s j = vtLane s (j % 16) := fun j hj => by
    rw [hvt j (hidx ▸ hj), hvt (j % 16) (by omega),
      show BitVec.ofNat 4 (j % 16) = BitVec.ofNat 4 j from BitVec.eq_of_toNat_eq (by simp)]
  rw [vtbl16_eq (hidx ▸ hnb) hrepeats]
  refine List.map_congr_left fun x hx => ?_
  have hpos : 0 < nb := hidx ▸ List.length_pos_of_mem hx
  have hlane : (lowNibble x).toNat < nb := (lowNibble x).isLt.trans_le (Nat.le_of_dvd hpos hnb)
  rw [hvt _ hlane, h4, BitVec.ofNat_toNat, BitVec.setWidth_eq]

/-- The body step of XVTBL computes the expansion of its vector (R237). -/
theorem bodyXvtbl_eq_expand {s : State} {nb : Nat} (hnb : 16 ∣ nb) (h4 : ∀ k, readT4 s k = dbl 8 k)
    (hvt : ∀ j < nb, vtLane s j = readT4 s (BitVec.ofNat 4 j)) {v : List Byte} (hv : v.length = nb) :
    bodyXvtbl nb s v = expand v := by
  have hlow : vtbl16 s (vandi v 0x0F) = v.map fun x => dbl 8 (lowNibble x) := by
    rw [vtbl16_eq_dbl hnb h4 hvt (by simpa [vandi] using hv), vandi, List.map_map]
    exact List.map_congr_left fun x _ => congrArg (dbl 8) (lowNibble_and x)
  have hhigh : vtbl16 s (vshri v 4) = v.map fun x => dbl 8 (highNibble x) := by
    rw [vtbl16_eq_dbl hnb h4 hvt (by simpa [vshri] using hv), vshri, List.map_map]
    exact List.map_congr_left fun x _ => congrArg (dbl 8) (lowNibble_shiftRight x)
  rw [bodyXvtbl, hlow, hhigh, vzip_map, expand_eq_flatMap]
  simp only [dbl_nibbles_eq_unpackBE]

theorem blockXvtbl_eq_expand {s : State} {vls : BitVec 2} (h4 : ∀ k, readT4 s k = dbl 8 k)
    (hvt : ∀ j < laneCount vls, vtLane s j = readT4 s (BitVec.ofNat 4 j)) {v : List Byte}
    (hv : v.length = 1 ∨ v.length = laneCount vls) : blockXvtbl vls s v = expand v := by
  obtain h1 | hnb := hv
  · rw [blockXvtbl, if_neg (ne_laneCount_of_length_one h1 vls), blockXlut4_eq_expand h4]
  · rw [blockXvtbl, if_pos hnb, bodyXvtbl_eq_expand (sixteen_dvd_laneCount vls) h4 hvt hnb]

/-! ## The statement -/

/-- Settles O28: each kernel by its formula, the lookup kernels through the entries of a built table. -/
theorem everyKernelComputesTheExpansion : Obligations.EveryKernelComputesTheExpansion := by
  refine fun s => ⟨blockXscl_eq_expand s, block_of_formula fun v => opt_eq_dbl (j := 3) rfl v,
    fun v => block_of_ladder (j := 4) (n := 2) rfl, fun v => block_of_ladder (j := 5) (n := 4) rfl,
    fun v => block_of_ladder (j := 6) (n := 8) rfl, block_of_formula mul1_eq_dbl, block_of_formula mul2_eq_dbl,
    block_of_formula square3_eq_dbl, block_of_formula square4_eq_dbl, fun _ _ => blockXvzip_eq_expand s,
    fun ht => ⟨fun h4 b => ?_, fun h8 => ?_, fun h16 _ => ?_, fun h4 _ hvt _ => ?_⟩⟩
  · exact blockXlut4_eq_expand (ht.four h4) [b]
  · exact block_of_formula (ht.eight h8)
  · exact blockXlut16_eq_expand (ht.sixteen h16)
  · exact blockXvtbl_eq_expand (ht.four h4) hvt

end Sys2Proof.Machine
end

section
/-! SUPPORT. A command completes where none of its chunks has a group left, and only there (spec 40_command_and_oracle.md
R128). -/

namespace Sys2Proof.Machine

/-- No chunk has work exactly when every cursor has reached its chunk's end (R127). -/
theorem chunksWithWork_eq_nil {i : Instr} {s : State} :
    chunksWithWork i s = [] ↔ ∀ k < chunkCount i, chunkLength i s k ≤ cursor s k := by
  simp [List.eq_nil_iff_forall_not_mem, mem_chunksWithWork]

/-- The turn of a running expand command with no group left (R128). -/
theorem busyExpand_of_noWork {i : Instr} {s : State} (block : State → List Byte → List Byte)
    (h : chunksWithWork i s = []) : busyExpand i block s = .next (completeCommand s) := by
  simp only [busyExpand, h]

/-- A running command with no group left completes; a table build has no group at all (R128). -/
theorem exec_completes {i : Instr} {s : State} (hb : s.busy = true) (h : chunksWithWork i s = []) :
    exec i s = .next (completeCommand s) := by
  obtain ⟨block, he⟩ | ⟨-, he⟩ := exec_cases i
  · rw [he, runExpand, if_pos hb, busyExpand_of_noWork block h]
  · rw [he, runTableBuild, if_pos hb]

/-- A running expand command with a group left takes a chunk's step, which leaves `BUSY` and `DONE` as they are (R127). -/
theorem exec_goesOn {i : Instr} {s t : State} (hi : isExpand i = true) (hb : s.busy = true)
    (hw : chunksWithWork i s ≠ []) (h : exec i s = .next t) : t.busy = true ∧ t.done = s.done := by
  obtain ⟨block, he⟩ | ⟨rfl | rfl | rfl, -⟩ := exec_cases i
  · obtain ⟨hidle, -⟩ | ⟨-, hturn⟩ := runExpand_next (he s ▸ h)
    · simp [hb] at hidle
    · obtain ⟨hnone, -⟩ | ⟨k, -, -, hstep⟩ := busyExpand_next hturn
      · exact absurd hnone hw
      · obtain ⟨-, -, rfl⟩ := chunkStep_next hstep
        exact ⟨hb, rfl⟩
  all_goals cases hi

/-- Settles O51: whether any chunk has work decides between the completion and a chunk's step. -/
theorem completionComesExactlyWhenNoGroupIsLeft : Obligations.CompletionComesExactlyWhenNoGroupIsLeft :=
  fun _ _ hb => ⟨fun hdone => exec_completes hb (chunksWithWork_eq_nil.mpr hdone), fun _ _ hi hk hcur =>
    exec_goesOn hi hb (List.ne_nil_of_mem (mem_chunksWithWork.mpr ⟨hk, hcur⟩))⟩

end Sys2Proof.Machine
end

section
/-! SUPPORT. The word-parallel unit (spec 41_word_parallel.md): the masks of the ladder by their bits (R151), and its ladders,
multiply formulas and masked squares against `dbl` (R154, R164, R167, R173). -/

namespace Sys2Proof.Machine

/-- Inside the value, a bit of `ALT(T, W)` is set exactly when it stands in an even run of `W` (R151). -/
theorem getLsbD_alt_eq_true_iff {T W b : Nat} (hb : b < T) : (alt T W).getLsbD b = true ↔ b / W % 2 = 0 := by
  rw [getLsbD_alt, decide_eq_true hb, Bool.true_and, decide_eq_true_iff]

/-- Settles O26: each width is a power of two. -/
theorem ladderComputesDbl : Obligations.LadderComputesDbl :=
  ⟨fun v => opt_eq_dbl (j := 3) rfl v, fun v => opt_eq_dbl (j := 4) rfl v, fun v => opt_eq_dbl (j := 5) rfl v,
    fun v => opt_eq_dbl (j := 6) rfl v⟩

/-- Settles O25: the eighteen masks of the table are run, the rule for every mask is by its bits. -/
theorem alternatingMasksAreThoseOfTheTable : Obligations.AlternatingMasksAreThoseOfTheTable := by
  refine ⟨?_, ?_, ?_, ?_, ?_, ?_, ?_, ?_, ?_, ?_, ?_, ?_, ?_, ?_, ?_, ?_, ?_, ?_,
    fun _ _ _ hb => getLsbD_alt_eq_true_iff hb⟩ <;> decide +kernel

/-- Settles O27: each formula has its own lemma; `M2` is `M2N` on the two nibbles. -/
theorem multiplyAndSquareFormulasComputeDbl : Obligations.MultiplyAndSquareFormulasComputeDbl :=
  ⟨mul1_eq_dbl, mul2Nibble_eq_dbl, mul2_eq_dbl, square3_eq_dbl, square4_eq_dbl⟩

end Sys2Proof.Machine
end

section
/-! SUPPORT. The vector unit (spec 43_vector.md): the lookup lane by lane, with the lane laws (R230), and where the head and
the body of a chunk end, with the cut of a chunk (R231). -/

namespace Sys2Proof.Machine

/-! ## The lane laws -/

/-- Lane by lane, under both readings: with `T4` built and `VT` loaded with its entries, the lookup of an index register
computed from `v` by `f` doubles the low nibble of `f`'s lane (R226, D23). -/
theorem vtbl16_map_getD {s : State} {nb : Nat} (hnb : 16 ∣ nb) (h4 : ∀ k, readT4 s k = dbl 8 k)
    (hvt : ∀ j < nb, vtLane s j = readT4 s (BitVec.ofNat 4 j)) {v : List Byte} (hv : v.length = nb) (f : Byte → Byte)
    {j : Nat} (hj : j < nb) : (vtbl16 s (v.map f)).getD j 0 = dbl 8 (lowNibble (f (v.getD j 0))) := by
  have hjv : j < v.length := hv ▸ hj
  rw [vtbl16_eq_dbl hnb h4 hvt (by rw [List.length_map, hv])]
  simp [hjv]

/-- Settles O29: the lookups lane by lane; the two interleaves are the body steps of XVZIP and XVTBL. -/
theorem laneLaws : Obligations.LaneLaws := by
  intro s vls v ht htv4 hv hvt
  have h4 := ht.four htv4
  have hnb := sixteen_dvd_laneCount vls
  refine ⟨fun j hj => ⟨?_, h4 _, ?_, h4 _⟩, fun r => bodyXvzip_eq_expand r (laneCount vls) v,
    bodyXvtbl_eq_expand hnb h4 hvt hv⟩
  · rw [vandi, vtbl16_map_getD hnb h4 hvt hv _ hj, lowNibble_and, h4]
  · rw [vshri, vtbl16_map_getD hnb h4 hvt hv _ hj, lowNibble_shiftRight, h4]

/-! ## Head, body and tail -/

/-- Every vector has a lane (R93). -/
theorem laneCount_pos (vls : BitVec 2) : 0 < laneCount vls := Nat.mul_pos (by decide) (Nat.two_pow_pos _)

section Cut

variable {nb sk len p : Nat}

theorem headLen_le (nb sk len : Nat) : headLen nb sk len ≤ len := Nat.min_le_left _ _

/-- A chunk that starts at a multiple of `NB` has no head (R231). -/
theorem headLen_of_dvd (h : nb ∣ sk) : headLen nb sk len = 0 := by
  rw [headLen, Nat.mod_eq_zero_of_dvd h, Nat.sub_zero, Nat.mod_self, Nat.min_zero]

/-- Any other chunk's head runs up to the next multiple of `NB`, if the chunk does (R231). -/
theorem headLen_of_not_dvd (hnb : 0 < nb) (h : ¬nb ∣ sk) : headLen nb sk len = min len (nb - sk % nb) := by
  have : sk % nb ≠ 0 := mt Nat.dvd_of_mod_eq_zero h
  rw [headLen, Nat.mod_eq_of_lt (by omega)]

/-- The head's length as R231 writes it, with the remainder of a negative number. -/
theorem headLen_eq_neg_emod (hnb : 0 < nb) : headLen nb sk len = min len ((-(sk : Int)) % (nb : Int)).toNat := by
  have hle : sk % nb ≤ nb := (Nat.mod_lt sk hnb).le
  have hmod : (((nb - sk % nb) % nb : Nat) : Int) = (-(sk : Int)) % (nb : Int) := by
    push_cast [Nat.cast_sub hle]
    rw [Int.sub_emod_left]
    exact (Int.mod_modEq sk nb).neg
  rw [headLen, ← hmod, Int.toNat_natCast]

/-- No byte of the head stands at a multiple of `NB` (R231). -/
theorem not_dvd_of_lt_headLen (hnb : 0 < nb) (hp : p < headLen nb sk len) : ¬nb ∣ sk + p := by
  by_cases h : nb ∣ sk
  · simp [headLen_of_dvd h] at hp
  · have : sk % nb ≠ 0 := mt Nat.dvd_of_mod_eq_zero h
    rw [headLen_of_not_dvd hnb h] at hp
    rw [← Nat.div_add_mod sk nb, Nat.add_assoc, Nat.dvd_add_right (Nat.dvd_mul_right nb _)]
    exact Nat.not_dvd_of_pos_of_lt (by omega) (by omega)

/-- A chunk longer than its head has a multiple of `NB` right after the head (R231). -/
theorem dvd_add_headLen (hnb : 0 < nb) (hlt : headLen nb sk len < len) : nb ∣ sk + headLen nb sk len := by
  by_cases h : nb ∣ sk
  · rwa [headLen_of_dvd h, Nat.add_zero]
  · rw [headLen_of_not_dvd hnb h] at hlt ⊢
    have hmod : sk % nb < nb := Nat.mod_lt sk hnb
    have hsk : nb * (sk / nb) + sk % nb = sk := Nat.div_add_mod sk nb
    exact ⟨sk / nb + 1, by rw [Nat.mul_succ]; omega⟩

/-- Head and body lie in the chunk (R231). -/
theorem headLen_add_body_le (nb sk len : Nat) : headLen nb sk len + bodyCount nb sk len * nb ≤ len := by
  have := headLen_le nb sk len
  have : bodyCount nb sk len * nb ≤ len - headLen nb sk len := Nat.div_mul_le_self _ _
  omega

/-- What head and body leave of the chunk is shorter than a vector (R231). -/
theorem tail_lt (hnb : 0 < nb) : len - headLen nb sk len - bodyCount nb sk len * nb < nb := by
  rw [bodyCount, Nat.mul_comm, ← Nat.mod_eq_sub_mul_div]
  exact Nat.mod_lt _ hnb

theorem bodyCount_of_lt (hlt : len < nb) : bodyCount nb sk len = 0 :=
  Nat.div_eq_of_lt ((Nat.sub_le _ _).trans_lt hlt)

/-- A chunk with a body is longer than its head. -/
theorem headLen_lt_of_bodyCount_pos (h : 0 < bodyCount nb sk len) : headLen nb sk len < len :=
  Nat.lt_of_sub_pos (Nat.pos_of_div_pos h)

/-! The three cases of `vectorGroupSize` (R231). -/

theorem vectorGroupSize_head (h : p < headLen nb sk len) : vectorGroupSize nb sk len p = 1 := if_pos h

theorem vectorGroupSize_body (hlo : headLen nb sk len ≤ p) (hhi : p < headLen nb sk len + bodyCount nb sk len * nb) :
    vectorGroupSize nb sk len p = nb := by
  rw [vectorGroupSize, if_neg hlo.not_gt, if_pos hhi]

theorem vectorGroupSize_tail (h : headLen nb sk len + bodyCount nb sk len * nb ≤ p) : vectorGroupSize nb sk len p = 1 := by
  rw [vectorGroupSize, if_neg (by omega), if_neg h.not_gt]

end Cut

/-- Settles O30: each clause is one of the lemmas on the cut, at a positive lane count. -/
theorem headBodyAndTailCutTheChunk : Obligations.HeadBodyAndTailCutTheChunk := by
  intro vls sk len
  have hnb := laneCount_pos vls
  exact ⟨headLen_eq_neg_emod hnb, rfl, headLen_add_body_le _ sk len, tail_lt hnb,
    fun _ => not_dvd_of_lt_headLen hnb, fun hbody => dvd_add_headLen hnb (headLen_lt_of_bodyCount_pos hbody),
    bodyCount_of_lt, fun _ => ⟨vectorGroupSize_head, vectorGroupSize_body, vectorGroupSize_tail⟩⟩

end Sys2Proof.Machine
end

section
/-! SUPPORT. The chunk partition (spec 44_chunk_dispatch.md): the nominal size as a quotient rounded up (R261), what the lengths
of the chunks are, and that the chunks lie end to end, so that the chunk of an offset is the offset's quotient by that size
(R262). -/

namespace Sys2Proof.Machine

section Partition

variable {L n k x : Nat}

/-! ## The nominal size (R261) -/

/-- `n` chunks of a size hold the data exactly when the size is at least `c`. -/
theorem chunkSize_le_iff (hn : 0 < n) {m : Nat} : chunkSize L n ≤ m ↔ L ≤ n * m := by
  rw [chunkSize, ← Nat.ceilDiv_eq_add_pred_div, ceilDiv_le_iff_le_mul hn]

theorem le_mul_chunkSize (hn : 0 < n) : L ≤ n * chunkSize L n := (chunkSize_le_iff hn).mp le_rfl

/-- `n` chunks of size `c` are too long for the data by less than a byte per chunk. -/
theorem mul_chunkSize_lt (hn : 0 < n) : n * chunkSize L n < L + n := by
  have : n * chunkSize L n ≤ L + n - 1 := Nat.mul_div_le _ _
  omega

/-- Without data the nominal size is 0 (R270). -/
theorem chunkSize_zero (hn : 0 < n) : chunkSize 0 n = 0 := Nat.le_zero.mp ((chunkSize_le_iff hn).mpr (Nat.zero_le _))

/-- With more chunks than bytes the nominal size is 1 (R270). -/
theorem chunkSize_of_lt (hL : 0 < L) (hLn : L < n) : chunkSize L n = 1 := by
  have hn : 0 < n := hL.trans hLn
  have hle : chunkSize L n ≤ 1 := (chunkSize_le_iff hn).mpr (by omega)
  have hpos : ¬chunkSize L n ≤ 0 := by rw [chunkSize_le_iff hn]; omega
  omega

/-! ## The chunks' starts and lengths (R261, R262) -/

theorem chunkStart_zero (L n : Nat) : chunkStart L n 0 = 0 := by simp [chunkStart]

/-- A chunk ends where the next one starts. -/
theorem chunkStart_succ (L n k : Nat) : chunkStart L n (k + 1) = chunkStart L n k + chunkLen L n k := by
  have hmono : chunkStart L n k ≤ chunkStart L n (k + 1) :=
    min_le_min_right L (Nat.mul_le_mul_right _ k.le_succ)
  exact (Nat.add_sub_of_le hmono).symm

/-- The last of `n` chunks ends where the data ends. -/
theorem chunkStart_chunkCount (hn : 0 < n) : chunkStart L n n = L := min_eq_right (le_mul_chunkSize hn)

/-- The first `m` chunks are as long as the offset at which they end. -/
theorem sum_chunkLen (L n m : Nat) : ((List.range m).map (chunkLen L n)).sum = chunkStart L n m := by
  induction m with
  | zero => simp [chunkStart_zero]
  | succ m ih => simp [List.range_succ, ih, chunkStart_succ]

theorem chunkLen_le_chunkSize (L n k : Nat) : chunkLen L n k ≤ chunkSize L n := by
  rw [chunkLen, chunkStart, Nat.succ_mul]
  omega

/-- A chunk that fits before the end of the data has the nominal size. -/
theorem chunkLen_of_mul_le (h : (k + 1) * chunkSize L n ≤ L) : chunkLen L n k = chunkSize L n := by
  rw [Nat.succ_mul] at h
  rw [chunkLen, chunkStart, Nat.succ_mul]
  omega

/-- A chunk that would start at or past the end of the data is empty. -/
theorem chunkLen_of_le_mul (h : L ≤ k * chunkSize L n) : chunkLen L n k = 0 := by
  rw [chunkLen, chunkStart, min_eq_right h]
  exact Nat.sub_eq_zero_of_le (Nat.min_le_right _ _)

/-- Every chunk before a non-empty one has the nominal size. -/
theorem chunkLen_of_succ_pos (h : 0 < chunkLen L n (k + 1)) : chunkLen L n k = chunkSize L n :=
  chunkLen_of_mul_le (Nat.le_of_not_le fun hend => h.ne' (chunkLen_of_le_mul hend))

/-! ## The chunk of an offset (R262) -/

/-- An input offset lies in the chunk whose number is the offset's quotient by the nominal size. -/
theorem mem_chunk_iff (hn : 0 < n) (hx : x < L) :
    chunkStart L n k ≤ x ∧ x < chunkStart L n k + chunkLen L n k ↔ k = x / chunkSize L n := by
  have hc : 0 < chunkSize L n := Nat.pos_of_mul_pos_left (hx.pos.trans_le (le_mul_chunkSize hn))
  rw [← chunkStart_succ, chunkStart, chunkStart, min_le_iff, lt_min_iff, Nat.succ_mul, eq_comm, Nat.div_eq_iff hc]
  omega

/-- Every input offset lies in exactly one of the `n` chunks. -/
theorem existsUnique_chunk_of_input (hn : 0 < n) (hx : x < L) :
    ∃! k, k < n ∧ chunkStart L n k ≤ x ∧ x < chunkStart L n k + chunkLen L n k := by
  have hlt : x / chunkSize L n < n := Nat.div_lt_of_lt_mul (Nat.mul_comm n _ ▸ hx.trans_le (le_mul_chunkSize hn))
  exact ⟨x / chunkSize L n, ⟨hlt, (mem_chunk_iff hn hx).mpr rfl⟩, fun _ ⟨_, hk⟩ => (mem_chunk_iff hn hx).mp hk⟩

/-- An output offset lies in the output range of a chunk exactly when the input offset it comes from lies in the chunk. -/
theorem mem_chunkOutput_iff {y : Nat} :
    2 * chunkStart L n k ≤ y ∧ y < 2 * chunkStart L n k + 2 * chunkLen L n k ↔
      chunkStart L n k ≤ y / 2 ∧ y / 2 < chunkStart L n k + chunkLen L n k := by
  omega

/-- Every output offset lies in the output range of exactly one of the `n` chunks. -/
theorem existsUnique_chunk_of_output (hn : 0 < n) {y : Nat} (hy : y < 2 * L) :
    ∃! k, k < n ∧ 2 * chunkStart L n k ≤ y ∧ y < 2 * chunkStart L n k + 2 * chunkLen L n k := by
  simp only [mem_chunkOutput_iff]
  exact existsUnique_chunk_of_input hn (Nat.div_lt_of_lt_mul hy)

end Partition

/-! ## The chunks of a command (R125) -/

/-- The output range of a chunk ends where that of the next one starts. -/
theorem chunkTarget_succ (i : Instr) (s : State) (k : Nat) :
    chunkTarget i s (k + 1) = chunkTarget i s k + 2 * chunkLength i s k := by
  rw [chunkTarget, chunkTarget, chunkLength, chunkStart_succ, Nat.mul_add, Nat.add_assoc]

/-- An empty chunk has no group to step (R127). -/
theorem notMem_chunksWithWork_of_empty {i : Instr} {s : State} {k : Nat} (h : chunkLength i s k = 0) :
    k ∉ chunksWithWork i s := by
  rw [mem_chunksWithWork, h]
  exact fun ⟨_, hcur⟩ => Nat.not_lt_zero _ hcur

/-! ## The statements -/

/-- Settles O31: the chunks lie end to end from 0 to `L`, and the chunk of an offset is its quotient by the nominal size. -/
theorem chunksPartitionTheRange : Obligations.ChunksPartitionTheRange := by
  intro L n hn
  refine ⟨⟨le_mul_chunkSize hn, mul_chunkSize_lt hn⟩, fun _ => ⟨rfl, rfl⟩, chunkStart_zero L n, chunkStart_succ L n,
    (sum_chunkLen L n n).trans (chunkStart_chunkCount hn), fun _ => existsUnique_chunk_of_input hn,
    fun _ => existsUnique_chunk_of_output hn, fun x k hlo hhi => ?_,
    fun k => ⟨chunkLen_le_chunkSize L n k, chunkLen_of_succ_pos⟩, ?_⟩
  · omega
  · rintro i s k rfl rfl
    exact ⟨rfl, rfl, chunkTarget_succ i s k⟩

/-- Settles O33: with size 1 the chunks' starts run through the bytes; without data every chunk starts at the end. -/
theorem chunksBeyondTheDataAreEmpty : Obligations.ChunksBeyondTheDataAreEmpty := by
  refine ⟨fun L n hL hLn => ?_, fun n hn => ⟨chunkSize_zero hn, fun _ => chunkLen_of_le_mul (Nat.zero_le _)⟩,
    fun i s k hempty => ⟨hempty ▸ Nat.dvd_zero _, notMem_chunksWithWork_of_empty hempty⟩⟩
  have hc := chunkSize_of_lt hL hLn
  exact ⟨hc, fun k hk => (chunkLen_of_mul_le (by rw [hc]; omega)).trans hc,
    fun k hk => chunkLen_of_le_mul (by rw [hc]; omega)⟩

/-- Settles O32: the nine partitions and the four length checks are run. -/
theorem workedPartitions : Obligations.WorkedPartitions := by
  refine ⟨?_, ?_, ?_, ?_, ?_, ?_, ?_, ?_, ?_, ?_, ?_, ?_, ?_, ?_⟩ <;> decide

end Sys2Proof.Machine
end

section
/-! SUPPORT. The checks of a start step (spec 60_exceptions.md R285 to R288): what each of them says of the bytes and the
chunks, and that an idle BDX reports the first that fails in the fixed order (R291); with these, the statements on the faults
of a start step. -/

namespace Sys2Proof.Machine

/-! ## The ranges (R286, R287) -/

/-- Two ranges meet exactly when they have a byte in common; the later of the two starts is one. -/
theorem rangesMeet_iff {a n b m : Nat} :
    rangesMeet a n b m = true ↔ ∃ x, a ≤ x ∧ x < a + n ∧ b ≤ x ∧ x < b + m := by
  simp only [rangesMeet, Bool.and_eq_true, decide_eq_true_eq]
  exact ⟨fun h => ⟨max a b, by omega⟩, fun ⟨_, hx⟩ => by omega⟩

/-- An address is not backed exactly when a region without memory covers it (R8). -/
theorem memOk_eq_false_iff {p : Config.Params} {x : Nat} :
    memOk p x = false ↔ ∃ r ∈ p.unbacked, r.base ≤ x ∧ x < r.base + r.size := by
  simp [memOk]

/-- A range is not backed exactly when one of its addresses is not. -/
theorem memOkRange_eq_false_iff {p : Config.Params} {a n : Nat} :
    memOkRange p a n = false ↔ ∃ x, a ≤ x ∧ x < a + n ∧ memOk p x = false := by
  have hmeet : memOkRange p a n = false ↔ ∃ r ∈ p.unbacked, rangesMeet a n r.base r.size = true := by
    simp [memOkRange]
  simp only [hmeet, rangesMeet_iff, memOk_eq_false_iff]
  exact ⟨fun ⟨r, hr, x, hlo, hhi, hx⟩ => ⟨x, hlo, hhi, r, hr, hx⟩,
    fun ⟨x, hlo, hhi, r, hr, hx⟩ => ⟨r, hr, x, hlo, hhi, hx⟩⟩

/-- The test of a range is R286's condition. -/
theorem rangeBad_iff {p : Config.Params} {a n : Nat} : rangeBad p a n = true ↔ badRange p a n := by
  simp only [rangeBad, Bool.and_eq_true, Bool.or_eq_true, decide_eq_true_eq, Bool.not_eq_true', memOkRange_eq_false_iff]
  rfl

theorem inputBad_eq_true_iff {s : State} : inputBad s = true ↔ badRange s.params s.src.toNat s.len.toNat :=
  rangeBad_iff

theorem outputBad_eq_true_iff {s : State} : outputBad s = true ↔ badRange s.params s.dst.toNat (2 * s.len.toNat) :=
  rangeBad_iff

theorem inputBad_eq_false_iff {s : State} : inputBad s = false ↔ ¬badRange s.params s.src.toNat s.len.toNat := by
  rw [← inputBad_eq_true_iff, Bool.not_eq_true]

theorem outputBad_eq_false_iff {s : State} :
    outputBad s = false ↔ ¬badRange s.params s.dst.toNat (2 * s.len.toNat) := by
  rw [← outputBad_eq_true_iff, Bool.not_eq_true]

/-- An empty range is never bad (R286). -/
theorem not_badRange_zero (p : Config.Params) (a : Nat) : ¬badRange p a 0 := fun h => Nat.lt_irrefl 0 h.1

/-- R287's inequalities; with `LEN = 0` there is no overlap. -/
theorem rangesOverlap_iff {s : State} :
    rangesOverlap s = true ↔
      0 < s.len.toNat ∧ s.src.toNat < s.dst.toNat + 2 * s.len.toNat ∧ s.dst.toNat < s.src.toNat + s.len.toNat := by
  simp only [rangesOverlap, Bool.and_eq_true, decide_eq_true_eq, and_assoc]

/-- The test for an overlap is that the input range and the output range meet. -/
theorem rangesOverlap_eq_rangesMeet (s : State) :
    rangesOverlap s = rangesMeet s.src.toNat s.len.toNat s.dst.toNat (2 * s.len.toNat) := by
  simp [rangesOverlap, rangesMeet]

/-- R287's inequalities hold exactly when the input range and the output range have a byte in common. -/
theorem rangesOverlap_iff_common_byte {s : State} :
    rangesOverlap s = true ↔ ∃ a, s.src.toNat ≤ a ∧ a < s.src.toNat + s.len.toNat ∧
      s.dst.toNat ≤ a ∧ a < s.dst.toNat + 2 * s.len.toNat := by
  rw [rangesOverlap_eq_rangesMeet, rangesMeet_iff]

/-- The output range of an accepted command fits the address space, and one that fills it would leave no room for the input
(R286, R287). -/
theorem Accepts.len_lt {i : Instr} {s : State} (h : Accepts i s) : s.len.toNat < 2 ^ 31 := by
  by_contra hlen
  have hend : ¬2 ^ 32 < s.dst.toNat + 2 * s.len.toNat := fun hpast =>
    outputBad_eq_false_iff.mp h.output ⟨by omega, .inl hpast⟩
  have hmeet : rangesOverlap s = true := rangesOverlap_iff.mpr (by have := s.src.isLt; omega)
  exact Bool.false_ne_true (h.disjoint.symm.trans hmeet)

/-! ## The chunk lengths (R288) -/

/-- Only the ladder kernels of more than one byte have a granularity (R126). -/
theorem granularity_ne_one_iff (i : Instr) :
    granularity i ≠ 1 ↔ ∃ nch, i = .xw16 nch ∨ i = .xw32 nch ∨ i = .xw64 nch := by
  cases i <;> simp [granularity]

section ChunkLengths

variable {g L n k : Nat}

/-- The `L / c` full chunks have the nominal size, the next has what is left, and the others are empty (R261). -/
theorem chunkLen_eq (hn : 0 < n) :
    chunkLen L n k =
      if k < L / chunkSize L n then chunkSize L n else if k = L / chunkSize L n then L % chunkSize L n else 0 := by
  obtain hc | hc := Nat.eq_zero_or_pos (chunkSize L n)
  · obtain rfl : L = 0 := by simpa [hc] using le_mul_chunkSize (L := L) hn
    simpa using chunkLen_of_le_mul (Nat.zero_le _)
  obtain hlt | rfl | hgt := Nat.lt_trichotomy k (L / chunkSize L n)
  · rw [if_pos hlt]
    exact chunkLen_of_mul_le ((Nat.le_div_iff_mul_le hc).mp hlt)
  · have hmod := Nat.mod_lt L hc
    have hdiv := Nat.div_add_mod' L (chunkSize L n)
    rw [if_neg (Nat.lt_irrefl _), if_pos rfl, chunkLen, chunkStart, Nat.succ_mul]
    omega
  · rw [if_neg hgt.not_gt, if_neg hgt.ne']
    exact chunkLen_of_le_mul ((Nat.div_lt_iff_lt_mul hc).mp hgt).le

/-- No chunk is reported exactly when every length is a multiple of the granularity. -/
theorem firstBadChunk_eq_none_iff : firstBadChunk g L n = none ↔ ∀ k < n, g ∣ chunkLen L n k := by
  simp [firstBadChunk, Nat.dvd_iff_mod_eq_zero]

/-- The chunk reported is the lowest whose length is no multiple of the granularity. -/
theorem firstBadChunk_eq_some_iff :
    firstBadChunk g L n = some k ↔ k < n ∧ ¬g ∣ chunkLen L n k ∧ ∀ j < k, g ∣ chunkLen L n j := by
  simp [firstBadChunk, Nat.dvd_iff_mod_eq_zero, and_left_comm]

/-- The index in closed form: the first chunk where the nominal size is no multiple, else the last with data (R288). -/
theorem firstBadChunk_eq (hn : 0 < n) :
    firstBadChunk g L n =
      if chunkSize L n % g ≠ 0 then some 0 else if L % g ≠ 0 then some (L / chunkSize L n) else none := by
  have hle : chunkSize L n ≤ L := (chunkSize_le_iff hn).mpr (Nat.le_mul_of_pos_left L hn)
  simp only [ne_eq, ← Nat.dvd_iff_mod_eq_zero, ite_not]
  split_ifs with hc hL
  · refine firstBadChunk_eq_none_iff.mpr fun k _ => ?_
    rw [chunkLen_eq hn]
    split_ifs
    · exact hc
    · exact (Nat.dvd_mod_iff hc).mpr hL
    · exact Nat.dvd_zero g
  · refine firstBadChunk_eq_some_iff.mpr ⟨?_, ?_, fun j hj => ?_⟩
    · have hne : L ≠ n * chunkSize L n := fun h => hL (h ▸ hc.mul_left n)
      exact Nat.div_lt_of_lt_mul (Nat.mul_comm n _ ▸ lt_of_le_of_ne (le_mul_chunkSize hn) hne)
    · rwa [chunkLen_eq hn, if_neg (Nat.lt_irrefl _), if_pos rfl, Nat.dvd_mod_iff hc]
    · rwa [chunkLen_eq hn, if_pos hj]
  · have hzero : chunkLen L n 0 = chunkSize L n := chunkLen_of_mul_le (by simpa using hle)
    exact firstBadChunk_eq_some_iff.mpr ⟨hn, hzero ▸ hc, fun _ hj => absurd hj (Nat.not_lt_zero _)⟩

end ChunkLengths

/-! ## The start step reports the first check that fails (R124, R291) -/

/-- The start step of an expand command on an idle BDX. -/
theorem exec_expand_idle {i : Instr} {s : State} (hi : isExpand i = true) (hb : s.busy = false) :
    exec i s = .next (startExpand i s) := by
  obtain ⟨block, he⟩ | ⟨rfl | rfl | rfl, -⟩ := exec_cases i
  · simp [he, runExpand, hb]
  all_goals cases hi

/-- Two reports on one state are the same exactly when the code and the information are. -/
theorem raiseFault_inj {code code' : FCode} {info info' : Word} {s : State} :
    raiseFault code info s = raiseFault code' info' s ↔ code = code' ∧ info = info' := by
  refine ⟨fun h => ⟨congrArg State.fcode h, congrArg State.finfo h⟩, ?_⟩
  rintro ⟨rfl, rfl⟩
  rfl

section StartFaults

variable {i : Instr} {s : State} (hi : isExpand i = true) (hb : s.busy = false)
include hi hb

/-- On an idle BDX an expand command faults with exactly what its checks answer: a launch would raise `BUSY`. -/
theorem startFaults_iff {code : FCode} {info : Word} :
    startFaults i s code info ↔ startFault i s = some (code, info) := by
  have hreport : startFaults i s code info ↔ startExpand i s = raiseFault code info s := by
    rw [startFaults, exec_expand_idle hi hb, Host.Outcome.next.injEq]
    rfl
  obtain ⟨code', info', hf, he⟩ | ⟨hf, he⟩ := startExpand_cases i s <;> rw [hreport, he, hf]
  · simp [raiseFault_inj]
  · exact iff_of_false (fun h => absurd (congrArg State.busy h) (by simp [hb])) (by simp)

theorem startFaults_unavail (ha : available s.params i = false) : startFaults i s .unavail s.cmd :=
  (startFaults_iff hi hb).mpr (by simp [startFault, ha])

theorem startFaults_inputRange (ha : available s.params i = true) (hin : inputBad s = true) :
    startFaults i s .range 0 :=
  (startFaults_iff hi hb).mpr (by simp [startFault, ha, hin])

theorem startFaults_outputRange (ha : available s.params i = true) (hin : inputBad s = false)
    (hout : outputBad s = true) : startFaults i s .range 1 :=
  (startFaults_iff hi hb).mpr (by simp [startFault, ha, hin, hout])

theorem startFaults_overlap (ha : available s.params i = true) (hin : inputBad s = false)
    (hout : outputBad s = false) (hov : rangesOverlap s = true) : startFaults i s .overlap 0 :=
  (startFaults_iff hi hb).mpr (by simp [startFault, ha, hin, hout, hov])

theorem startFaults_length {k : Nat} (ha : available s.params i = true) (hin : inputBad s = false)
    (hout : outputBad s = false) (hov : rangesOverlap s = false)
    (hk : firstBadChunk (granularity i) s.len.toNat (chunkCount i) = some k) :
    startFaults i s .length (BitVec.ofNat 32 k) :=
  (startFaults_iff hi hb).mpr (by simp [startFault, ha, hin, hout, hov, hk])

/-- `F_OVERLAP` is reported only of ranges that overlap. -/
theorem rangesOverlap_of_startFaults {info : Word} (h : startFaults i s .overlap info) : rangesOverlap s = true := by
  have hf := (startFaults_iff hi hb).mp h
  unfold startFault at hf
  split_ifs at hf with ha hin hout hov
  · cases hf
  · cases hf
  · cases hf
  · exact hov
  · split at hf <;> cases hf

end StartFaults

/-- A command of a vector length whose `CAP` bit is 0 (R285). -/
theorem startFaults_missingVector {i : Instr} {s : State} {vls : BitVec 2} (hi : isExpand i = true)
    (hv : vectorSelect i = some vls) (hb : s.busy = false) (hcap : (capWord s.params).getLsbD vls.toNat = false) :
    startFaults i s .unavail s.cmd :=
  startFaults_unavail hi hb (by simpa [available, hv] using hcap)

/-- The step that writes the word of a command to `CMD` on an idle BDX is the command's start step (R22, R124). -/
theorem step_writeCmd_of_decode {w : Word} {s : State} {rest : List Event} {i : Instr} (hb : s.busy = false)
    (he : s.events = .writeReg .cmd w :: rest) (hd : decode w = .ok i) :
    step s = exec i (beginCommand w { s with events := rest }) := by
  rw [step_writeCmd_idle hb he, startCommand, hd]

/-! ## The statements -/

/-- Settles O40: the checks are R286's conditions, and an accepted command passes them. -/
theorem badRangeFaults : Obligations.BadRangeFaults := by
  refine ⟨fun i s hi hb ha => ⟨fun hin => ?_, fun hin hout => ?_⟩, fun i s _ hacc => ?_, not_badRange_zero,
    fun i s hacc => hacc.len_lt⟩
  · exact startFaults_inputRange hi hb ha (inputBad_eq_true_iff.mpr hin)
  · exact startFaults_outputRange hi hb ha (inputBad_eq_false_iff.mpr hin) (outputBad_eq_true_iff.mpr hout)
  · exact ⟨inputBad_eq_false_iff.mp hacc.input, outputBad_eq_false_iff.mp hacc.output⟩

/-- Settles O41: R287's inequalities hold exactly of ranges with a byte in common. -/
theorem overlapFaults : Obligations.OverlapFaults := by
  refine ⟨fun s => rangesOverlap_iff, fun i s info hi hb hlen hf => ?_, fun i s hi hb ha hin hout hov => ?_,
    fun i s hacc hov => ?_⟩
  · have hpos := (rangesOverlap_iff.mp (rangesOverlap_of_startFaults hi hb hf)).1
    simp [hlen] at hpos
  · exact startFaults_overlap hi hb ha (inputBad_eq_false_iff.mpr hin) (outputBad_eq_false_iff.mpr hout)
      (rangesOverlap_iff_common_byte.mpr hov)
  · exact Bool.false_ne_true (hacc.disjoint.symm.trans (rangesOverlap_iff_common_byte.mpr hov))

/-- Settles O42: the chunk reported is the lowest that is no multiple, and only the first or the last with data can be. -/
theorem badChunkLengthFaults : Obligations.BadChunkLengthFaults :=
  ⟨fun _ _ _ hi hb ha hin hout hov hk hbad hlow =>
      startFaults_length hi hb ha hin hout hov (firstBadChunk_eq_some_iff.mpr ⟨hk, hbad, hlow⟩),
    granularity_ne_one_iff, fun _ => ⟨rfl, rfl, rfl⟩, fun _ _ _ => firstBadChunk_eq_none_iff,
    fun _ _ _ _ hn => firstBadChunk_eq hn⟩

/-- Settles O43: the checks are in the fixed order, and the decoder comes before them. -/
theorem oneFaultIsReportedInTheFixedOrder : Obligations.OneFaultIsReportedInTheFixedOrder := by
  refine ⟨fun i s hi hb => ⟨startFaults_unavail hi hb, startFaults_inputRange hi hb, startFaults_outputRange hi hb,
    startFaults_overlap hi hb, fun k => startFaults_length hi hb⟩, fun s nch hb _ hin hout hov => ?_,
    fun s nch hb hvl _ => ?_, fun s w rest hb he hop hn => ?_⟩
  · exact startFaults_overlap rfl hb rfl hin hout hov
  · exact startFaults_missingVector rfl rfl hb ((getLsbD_capWord s.params 2).trans hvl)
  · have hillegal : illegalWord w := (illegalWord_iff_of_vector (.inl (congrArg BitVec.toNat hop))).mpr (.inr (.inr hn))
    exact ⟨_, (step_writeCmd_idle hb he).trans (startCommand_illegal hillegal hb), rfl, rfl⟩

/-- Settles O39: the availability check comes first, and the start step has put the word into `CMD`. -/
theorem missingVectorLengthFaults : Obligations.MissingVectorLengthFaults := by
  intro s vls nch hb hcap
  refine ⟨startFaults_missingVector rfl rfl hb hcap, startFaults_missingVector rfl rfl hb hcap, fun w rest he hd => ?_⟩
  obtain hd | hd := hd <;>
    exact (step_writeCmd_of_decode hb he hd).trans (startFaults_missingVector rfl rfl hb hcap)

end Sys2Proof.Machine
end

section
/-! SUPPORT. The encoder of R102 against the decoder of R97, row by row of the opcode map (R96); with this, the statements that
each undoes the other (spec 30_encoding.md R99). -/

namespace Sys2Proof.Machine

open Sys2Proof.Laws

/-! ## The word of a row decodes to its command -/

section Rows
variable {op : BitVec 8} {vls : BitVec 2} {nch : BitVec 16}

theorem decode_commandWord_expand {mk : BitVec 16 → Instr} (hf : formatOf op = some (.expand mk)) (hn : nch ≠ 0) :
    decode (commandWord nch 0 op) = .ok (mk nch) := by
  have h := decode_expand_ok (mk := mk) (rsvField_commandWord nch 0 op) (vlsField_commandWord nch 0 op)
  rw [nchField_commandWord, opField_commandWord] at h
  exact h hn hf

theorem decode_commandWord_vector {mk : BitVec 2 → BitVec 16 → Instr} (hf : formatOf op = some (.vector mk))
    (hv : vls ≠ 3) (hn : nch ≠ 0) : decode (commandWord nch vls op) = .ok (mk vls nch) := by
  have h := decode_vector_ok (mk := mk) (rsvField_commandWord nch vls op)
  rw [nchField_commandWord, vlsField_commandWord, opField_commandWord] at h
  exact h hv hn hf

theorem decode_commandWord_tableBuild {i : Instr} (hf : formatOf op = some (.tableBuild i)) :
    decode (commandWord 0 0 op) = .ok i :=
  decode_tableBuild_ok (rsvField_commandWord 0 0 op) (vlsField_commandWord 0 0 op) (nchField_commandWord 0 0 op)
    ((opField_commandWord 0 0 op).symm ▸ hf)

end Rows

/-! ## A word that decodes is the word of its row -/

/-- A word is put together from its fields (R91). -/
theorem commandWord_of_fields {w : Word} (hr : rsvField w = 0) :
    commandWord (nchField w) (vlsField w) (opField w) = w := by
  refine BitVec.eq_of_getLsbD_eq fun j hj => ?_
  have hrsv : ∀ b < 6, w.getLsbD (10 + b) = false := fun b hb => by
    simpa [rsvField, hb] using congrArg (BitVec.getLsbD · b) hr
  rw [getLsbD_commandWord]
  split_ifs with h8 h10 h16
  · simp [opField, h8]
  · simp [vlsField, show j - 8 < 2 by omega, show 8 + (j - 8) = j by omega]
  · rw [← hrsv (j - 10) (by omega), show 10 + (j - 10) = j by omega]
  · simp [nchField, show j - 16 < 16 by omega, show 16 + (j - 16) = j by omega]

/-- A format belongs to an opcode: its commands encode to that opcode with their own `VLS` and `NCH`, and are well-formed where
the tests of the format pass (R95, R96). -/
def BelongsTo (op : BitVec 8) : Format → Prop
  | .expand mk => ∀ nch, encode (mk nch) = commandWord nch 0 op ∧ (mk nch).wellFormed = (nch != 0)
  | .vector mk => ∀ vls nch, encode (mk vls nch) = commandWord nch vls op ∧
      (mk vls nch).wellFormed = (vls != 3 && nch != 0)
  | .tableBuild i => encode i = commandWord 0 0 op ∧ i.wellFormed = true

theorem eq_ofNat_of_toNat {op : BitVec 8} {n : Nat} (h : op.toNat = n) : op = BitVec.ofNat 8 n := by
  rw [← h, BitVec.ofNat_toNat, BitVec.setWidth_eq]

/-- Every row of the opcode map has the format of its opcode. -/
theorem formatOf_belongsTo {op : BitVec 8} {f : Format} (h : formatOf op = some f) : BelongsTo op f := by
  unfold formatOf at h
  split at h
  case h_18 => cases h
  all_goals
    rename_i hop
    obtain rfl := eq_ofNat_of_toNat hop
    cases h
  case h_13 | h_14 => exact fun _ _ => ⟨rfl, rfl⟩
  case h_15 | h_16 | h_17 => exact ⟨rfl, rfl⟩
  all_goals exact fun _ => ⟨rfl, rfl⟩

/-- What a word that decodes has passed (R97). -/
theorem decode_ok_cases {w : Word} {i : Instr} (h : decode w = .ok i) :
    ∃ f, formatOf (opField w) = some f ∧ rsvField w = 0 ∧
      match f with
      | .expand mk => vlsField w = 0 ∧ nchField w ≠ 0 ∧ i = mk (nchField w)
      | .vector mk => vlsField w ≠ 3 ∧ nchField w ≠ 0 ∧ i = mk (vlsField w) (nchField w)
      | .tableBuild j => vlsField w = 0 ∧ nchField w = 0 ∧ i = j := by
  cases hf : formatOf (opField w) with
  | none => rw [decode_unassigned hf] at h; cases h
  | some f =>
    by_cases hr : rsvField w = 0
    · refine ⟨f, rfl, hr, ?_⟩
      cases f with
      | expand mk =>
        rw [decode_expand hf hr] at h
        split_ifs at h with hv hn
        exact ⟨not_not.mp hv, hn, by cases h; rfl⟩
      | vector mk =>
        rw [decode_vector hf hr] at h
        split_ifs at h with hv hn
        exact ⟨hv, hn, by cases h; rfl⟩
      | tableBuild j =>
        rw [decode_tableBuild hf hr] at h
        split_ifs at h with hv hn
        exact ⟨not_not.mp hv, not_not.mp hn, by cases h; rfl⟩
    · rw [decode_reservedBits hf hr] at h; cases h

/-! ## The statements -/

/-- Settles O2: the word of each command is the word of its row. -/
theorem decodeOfEncodeIsTheCommand : Obligations.DecodeOfEncodeIsTheCommand := by
  intro i hi
  cases i with
  | xscl nch | xw8 nch | xw16 nch | xw32 nch | xw64 nch | xben nch | xbenk nch | xlau3 nch | xlau4 nch | xlut4 nch
  | xlut8 nch | xlut16 nch => exact decode_commandWord_expand rfl (bne_iff_ne.mp hi)
  | xvzip vls nch | xvtbl vls nch =>
    obtain ⟨hv, hn⟩ := Bool.and_eq_true_iff.mp hi
    exact decode_commandWord_vector rfl (bne_iff_ne.mp hv) (bne_iff_ne.mp hn)
  | tbld4 | tbld8 | tbld16 => exact decode_commandWord_tableBuild rfl

/-- Settles O3: a word that decodes has passed the tests of its row's format, so its fields are those of the row's word. -/
theorem encodeOfDecodeIsTheWord : Obligations.EncodeOfDecodeIsTheWord := by
  intro w i h
  obtain ⟨f, hf, hr, hi⟩ := decode_ok_cases h
  have hrow := formatOf_belongsTo hf
  have hw := commandWord_of_fields hr
  cases f with
  | expand mk =>
    obtain ⟨hv, hn, rfl⟩ := hi
    obtain ⟨hword, hwf⟩ := hrow (nchField w)
    exact ⟨hword.trans (hv ▸ hw), hwf.trans (bne_iff_ne.mpr hn)⟩
  | vector mk =>
    obtain ⟨hv, hn, rfl⟩ := hi
    obtain ⟨hword, hwf⟩ := hrow (vlsField w) (nchField w)
    exact ⟨hword.trans hw, hwf.trans (Bool.and_eq_true_iff.mpr ⟨bne_iff_ne.mpr hv, bne_iff_ne.mpr hn⟩)⟩
  | tableBuild j =>
    obtain ⟨hv, hn, rfl⟩ := hi
    obtain ⟨hword, hwf⟩ := hrow
    exact ⟨hword.trans (hv ▸ hn ▸ hw), hwf⟩

/-- Settles O1: each word is the word of its row, written out. -/
theorem decodeReadsWordsWrittenOut : Obligations.DecodeReadsWordsWrittenOut := by
  refine ⟨?_, ?_, ?_, ?_, ?_, ?_, ?_, ?_, ?_, ?_, ?_, ?_⟩ <;> rfl

end Sys2Proof.Machine
end

section
/-! SUPPORT. The table builds (spec 42_lookup_table.md R192, R194): each fills its table with the doubled keys and touches no
built one; what a start step does where its checks pass (40_command_and_oracle.md R124, R129); with these, the statements on
accepted commands, on the table-build commands and on built tables. -/

namespace Sys2Proof.Machine

/-! ## The entries that a build fills in (R192) -/

/-- Whether the tables are sound depends on the tables and their valid bits only. -/
theorem TablesSound.congr {s t : State} (h : TablesSound s) (htv4 : t.tv4 = s.tv4) (htv8 : t.tv8 = s.tv8)
    (htv16 : t.tv16 = s.tv16) (ht4 : t.t4 = s.t4) (ht8 : t.t8 = s.t8) (ht16 : t.t16 = s.t16) : TablesSound t where
  four hv k := by rw [readT4, ht4]; exact h.four (htv4 ▸ hv) k
  eight hv k := by rw [readT8, ht8]; exact h.eight (htv8 ▸ hv) k
  sixteen hv k := by rw [readT16, ht16]; exact h.sixteen (htv16 ▸ hv) k
  eightHasFour hv := htv4 ▸ h.eightHasFour (htv8 ▸ hv)
  sixteenHasEight hv := htv8 ▸ h.sixteenHasEight (htv16 ▸ hv)

/-- A key is its high half, a quotient, above its low half, a remainder. -/
theorem ofNat_append_ofNat {m n : Nat} (k : BitVec (m + n)) :
    BitVec.ofNat m (k.toNat / 2 ^ n) ++ BitVec.ofNat n k.toNat = k := by
  refine BitVec.eq_of_toNat_eq ?_
  have hlt : k.toNat / 2 ^ n < 2 ^ m := Nat.div_lt_of_lt_mul (by rw [Nat.mul_comm, ← Nat.pow_add]; exact k.isLt)
  rw [toNat_append_eq, BitVec.toNat_ofNat, BitVec.toNat_ofNat, Nat.mod_eq_of_lt hlt, Nat.div_add_mod']

theorem readT4_of_entries4 {s : State} (h : s.t4 = entries4) (k : BitVec 4) : readT4 s k = dbl 8 k := by
  rw [readT4_of_fill h, BitVec.ofNat_toNat, BitVec.setWidth_eq]

theorem readT8_of_entries8 {s u : State} (h : s.t8 = entries8 u) (h4 : ∀ k, readT4 u k = dbl 8 k) (k : BitVec 8) :
    readT8 s k = dbl 16 k := by
  rw [readT8_of_fill h, h4, h4, ← dbl_append (N := 4)]
  exact congrArg (dbl 16) (ofNat_append_ofNat (m := 4) (n := 4) k)

theorem readT16_of_entries16 {s u : State} (h : s.t16 = entries16 u) (h8 : ∀ k, readT8 u k = dbl 16 k)
    (k : BitVec 16) : readT16 s k = dbl 32 k := by
  unfold entries16 at h
  rw [readT16_of_fill h, h8, h8, ← dbl_append (N := 8)]
  exact congrArg (dbl 32) (ofNat_append_ofNat (m := 8) (n := 8) k)

/-! ## A build keeps the tables sound (R191) -/

theorem build4_sound {s : State} (h : TablesSound s) : TablesSound (build4 s) := by
  obtain ⟨-, hb⟩ | ⟨-, hb⟩ := build4_cases s <;> rw [hb]
  · exact h
  · exact ⟨fun _ => readT4_of_entries4 rfl, h.eight, h.sixteen, fun _ => rfl, h.sixteenHasEight⟩

theorem build8_sound {s : State} (h : TablesSound s) : TablesSound (build8 s) := by
  have h4 := build4_sound h
  obtain ⟨-, hb⟩ | ⟨-, hb⟩ := build8_cases s <;> rw [hb]
  · exact h4
  · exact ⟨h4.four, fun _ => readT8_of_entries8 rfl (h4.four (build4_tv4 s)), h4.sixteen, fun _ => build4_tv4 s,
      fun _ => rfl⟩

theorem build16_sound {s : State} (h : TablesSound s) : TablesSound (build16 s) := by
  have h8 := build8_sound h
  obtain ⟨-, hb⟩ | ⟨-, hb⟩ := build16_cases s <;> rw [hb]
  · exact h8
  · exact ⟨h8.four, h8.eight, fun _ => readT16_of_entries16 (by dsimp only) (h8.eight (build8_tv8 s)), h8.eightHasFour,
      fun _ => build8_tv8 s⟩

theorem buildTables_sound (n : Option TableName) {s : State} (h : TablesSound s) : TablesSound (buildTables n s) :=
  match n with
  | none => h
  | some .t4 => build4_sound h
  | some .t8 => build8_sound h
  | some .t16 => build16_sound h

/-! ## A build leaves the built tables alone (R34, R195) -/

/-- A table built in `s` is built in `t` and has the same entries. -/
structure TablesKept (s t : State) : Prop where
  four : s.tv4 = true → t.tv4 = true ∧ t.t4 = s.t4
  eight : s.tv8 = true → t.tv8 = true ∧ t.t8 = s.t8
  sixteen : s.tv16 = true → t.tv16 = true ∧ t.t16 = s.t16

theorem buildTables_kept (n : Option TableName) (s : State) : TablesKept s (buildTables n s) := by
  match n with
  | none => exact ⟨fun h => ⟨h, rfl⟩, fun h => ⟨h, rfl⟩, fun h => ⟨h, rfl⟩⟩
  | some .t4 | some .t8 | some .t16 => constructor <;> intro h <;> simp [buildTables, h]

/-- A table that is no more built than before has the same entries: the builds fill only what they make valid. -/
theorem buildTables_unbuilt (n : Option TableName) (s : State) :
    ((buildTables n s).tv4 = false → (buildTables n s).t4 = s.t4) ∧
    ((buildTables n s).tv8 = false → (buildTables n s).t8 = s.t8) ∧
    ((buildTables n s).tv16 = false → (buildTables n s).t16 = s.t16) := by
  match n with
  | none | some .t4 | some .t8 | some .t16 => simp [buildTables]

/-- The builds of a command do what R192 and R194 say. -/
theorem buildTables_builtUpTo (n : Option TableName) (s : State) : tablesBuiltUpTo n s (buildTables n s) := by
  have hk := buildTables_kept n s
  obtain ⟨hu4, hu8, hu16⟩ := buildTables_unbuilt n s
  refine ⟨buildTables_tv4 n s, buildTables_tv8 n s, buildTables_tv16 n s, fun h => ?_, fun h => ?_, fun h => ?_,
    buildTables_sound n⟩
  · cases hv : s.tv4
    · exact hu4 (h.symm.trans hv)
    · exact (hk.four hv).2
  · cases hv : s.tv8
    · exact hu8 (h.symm.trans hv)
    · exact (hk.eight hv).2
  · cases hv : s.tv16
    · exact hu16 (h.symm.trans hv)
    · exact (hk.sixteen hv).2

/-- What has been built depends on the tables and their valid bits only. -/
theorem tablesBuiltUpTo_congr {n : Option TableName} {r s t u : State} (h : tablesBuiltUpTo n s t)
    (hr : r.tv4 = s.tv4 ∧ r.tv8 = s.tv8 ∧ r.tv16 = s.tv16 ∧ r.t4 = s.t4 ∧ r.t8 = s.t8 ∧ r.t16 = s.t16)
    (hu : u.tv4 = t.tv4 ∧ u.tv8 = t.tv8 ∧ u.tv16 = t.tv16 ∧ u.t4 = t.t4 ∧ u.t8 = t.t8 ∧ u.t16 = t.t16) :
    tablesBuiltUpTo n r u := by
  obtain ⟨hr4, hr8, hr16, hrt4, hrt8, hrt16⟩ := hr
  obtain ⟨hu4, hu8, hu16, hut4, hut8, hut16⟩ := hu
  obtain ⟨hv4, hv8, hv16, ht4, ht8, ht16, hs⟩ := h
  unfold tablesBuiltUpTo
  rw [hr4, hr8, hr16, hrt4, hrt8, hrt16, hu4, hu8, hu16, hut4, hut8, hut16]
  exact ⟨hv4, hv8, hv16, ht4, ht8, ht16, fun hsound =>
    (hs (hsound.congr hr4.symm hr8.symm hr16.symm hrt4.symm hrt8.symm hrt16.symm)).congr hu4 hu8 hu16 hut4 hut8 hut16⟩

/-- The tables that an accepted start step leaves (R194). -/
theorem launch_builtUpTo (i : Instr) (s : State) : tablesBuiltUpTo (tableNamed i) s (launch i s) :=
  tablesBuiltUpTo_congr (buildTables_builtUpTo (tableNamed i) s) ⟨rfl, rfl, rfl, rfl, rfl, rfl⟩ (by simp)

/-! ## An accepted start step (R124) -/

/-- A start step raises no fault exactly when every check passes (R285 to R288). -/
theorem startFault_eq_none_iff {i : Instr} {s : State} : startFault i s = none ↔ Accepts i s := by
  unfold startFault
  constructor
  · intro h
    split_ifs at h with ha hin hout hov
    refine ⟨by simpa using ha, by simpa using hin, by simpa using hout, by simpa using hov, ?_⟩
    split at h
    · cases h
    · exact firstBadChunk_eq_none_iff.mp ‹_›
  · intro h
    simp [h.vectorLength, h.input, h.output, h.disjoint, firstBadChunk_eq_none_iff.mpr h.lengths]

theorem startExpand_of_accepts {i : Instr} {s : State} (h : Accepts i s) : startExpand i s = launch i s := by
  rw [startExpand, startFault_eq_none_iff.mpr h]

/-- The launch changes the tables, `VT`, the cursors and `BUSY`, and nothing else. -/
theorem launch_eq (i : Instr) (s : State) :
    launch i s = { s with
      busy := true, pos := List.replicate (chunkCount i) 0, vt := (launch i s).vt
      tv4 := (launch i s).tv4, tv8 := (launch i s).tv8, tv16 := (launch i s).tv16
      t4 := (launch i s).t4, t8 := (launch i s).t8, t16 := (launch i s).t16 } := by
  have hvt : ∀ u : State, loadVT i u = { u with vt := (loadVT i u).vt } := fun u => by cases i <;> rfl
  conv_lhs => rw [launch, hvt]
  simp

/-- An expand command whose checks pass starts on an idle BDX. -/
theorem startsRunning_launch {i : Instr} {s : State} (hi : isExpand i = true) (hb : s.busy = false) (h : Accepts i s) :
    startsRunning i s (chunkCount i) (launch i s) :=
  ⟨by rw [exec_expand_idle hi hb, startExpand_of_accepts h], launch_eq i s⟩

/-- Only XVTBL loads `VT` in its start step. -/
theorem accepted_of_keepsVT {i : Instr} (hi : isExpand i = true) (hvt : ∀ s, (loadVT i s).vt = s.vt) :
    accepted i (chunkCount i) (tableNamed i) := fun s hb h =>
  ⟨launch i s, startsRunning_launch hi hb h, launch_builtUpTo i s, by rw [launch_vt, hvt, buildTables_vt]⟩

/-- With `LEN = 0` every check but that on the vector length passes (R129). -/
theorem accepts_of_len_zero {i : Instr} {s : State} (hl : s.len = 0) (ha : available s.params i = true) :
    Accepts i s where
  vectorLength := ha
  input := inputBad_eq_false_iff.mpr (by rw [hl]; exact not_badRange_zero _ _)
  output := outputBad_eq_false_iff.mpr (by rw [hl]; exact not_badRange_zero _ _)
  disjoint := by simp [rangesOverlap, hl]
  lengths k _ := by
    rw [chunkLength, hl, show (0 : Word).toNat = 0 from rfl, chunkLen_of_le_mul (Nat.zero_le _)]
    exact Nat.dvd_zero _

/-- With `LEN = 0` no chunk has a group (R129). -/
theorem chunksWithWork_of_len_zero {i : Instr} {s : State} (hl : s.len = 0) : chunksWithWork i s = [] := by
  rw [chunksWithWork_eq_nil]
  intro k _
  rw [chunkLength, hl, show (0 : Word).toNat = 0 from rfl, chunkLen_of_le_mul (Nat.zero_le _)]
  exact Nat.zero_le _

/-! ## The table-build commands (R196 to R198) -/

/-- The start step of a table build: the tables and `BUSY`. -/
theorem runTableBuild_idle (i : Instr) {s : State} (hb : s.busy = false) :
    runTableBuild i s = .next { buildTables (tableNamed i) s with busy := true } := by
  simp [runTableBuild, hb]

theorem runTableBuild_busy (i : Instr) {s : State} (hb : s.busy = true) :
    runTableBuild i s = .next (completeCommand s) := by
  simp [runTableBuild, hb]

theorem buildTables_busy_builtUpTo (n : Option TableName) (s : State) :
    tablesBuiltUpTo n s { buildTables n s with busy := true } :=
  tablesBuiltUpTo_congr (buildTables_builtUpTo n s) ⟨rfl, rfl, rfl, rfl, rfl, rfl⟩ ⟨rfl, rfl, rfl, rfl, rfl, rfl⟩

/-! ## The statements -/

/-- Settles O34: none of the nine names a table or loads `VT`. -/
theorem scalarAndWordParallelCommandsStart : Obligations.ScalarAndWordParallelCommandsStart := by
  intro nch
  refine ⟨?_, ?_, ?_, ?_, ?_, ?_, ?_, ?_, ?_⟩ <;> exact accepted_of_keepsVT rfl fun _ => rfl

/-- Settles O35: each builds the table it names. -/
theorem lookupCommandsStartWithTheirTablesBuilt : Obligations.LookupCommandsStartWithTheirTablesBuilt := by
  intro nch
  refine ⟨?_, ?_, ?_⟩ <;> exact accepted_of_keepsVT rfl fun _ => rfl

/-- Settles O36: XVTBL's `VT` is the image of `T4` as its start step has left it. -/
theorem vectorCommandsStart : Obligations.VectorCommandsStart := by
  refine fun vls nch => ⟨accepted_of_keepsVT rfl fun _ => rfl, fun s hb h =>
    ⟨_, startsRunning_launch rfl hb h, launch_builtUpTo _ s, by simp [loadVT, vtImage], fun j hj => ?_⟩⟩
  calc vtLane (launch (.xvtbl vls nch) s) j
    _ = readT4 (build4 s) (BitVec.ofNat 4 j) := vtLane_loadVT vls nch (build4 s) hj
    _ = readT4 (build4 s) (BitVec.ofNat 4 (j % 16)) := congrArg _ (BitVec.eq_of_toNat_eq (by simp))

/-- Settles O37: the start step is the builds and `BUSY`. -/
theorem tableBuildCommandsBuildAndComplete : Obligations.TableBuildCommandsBuildAndComplete := by
  refine fun s => ⟨fun hb => ⟨⟨_, runTableBuild_idle _ hb, buildTables_busy_builtUpTo _ s, ?_⟩,
      ⟨_, runTableBuild_idle _ hb, buildTables_busy_builtUpTo _ s, ?_⟩,
      ⟨_, runTableBuild_idle _ hb, buildTables_busy_builtUpTo _ s, ?_⟩⟩,
    fun hb => ⟨runTableBuild_busy _ hb, runTableBuild_busy _ hb, runTableBuild_busy _ hb⟩⟩
  all_goals
    conv_lhs => rw [buildTables_frame]
    simp [tableNamed, buildTables]

/-- Settles O38: with `LEN = 0` the checks pass and no chunk has a group. -/
theorem zeroLengthCompletesWithoutAnAccess : Obligations.ZeroLengthCompletesWithoutAnAccess := fun i s hi hb hl ha =>
  ⟨launch i s, startsRunning_launch hi hb (accepts_of_len_zero hl ha), launch_builtUpTo i s, launch_mem i s,
    exec_completes (launch_busy i s) (chunksWithWork_of_len_zero ((launch_len i s).trans hl))⟩

end Sys2Proof.Machine
end

section
/-! SUPPORT. What one step of the machine can be, said in one list, and which of the registers, status bits and tables it
changes; with these, the statements on register accesses, reset, WAIT and an idle BDX (spec 10_state.md R21 to R29,
70_reset_and_hazards.md), and on the trace that a fault leaves (60_exceptions.md R292). -/

namespace Sys2Proof.Machine

/-! ## The kinds of steps -/

/-- Everything a step from `s` that answers `t` can be. -/
inductive StepKind (s t : State) : Prop
  /-- The reset event (R310). -/
  | reset (rest : List Event) (he : s.events = .reset :: rest) (ht : t = applyReset { s with events := rest })
  /-- A register write that finds BDX busy (R29). -/
  | busyWrite (r : Reg) (v : Word) (rest : List Event) (hb : s.busy = true) (he : s.events = .writeReg r v :: rest)
      (ht : t = { s with events := rest, busyErr := true })
  /-- A write of an operand register of an idle BDX, or of a register that ignores it (R22). -/
  | operands (a b c : Word) (rest : List Event) (hb : s.busy = false)
      (hsrc : a = s.src ∨ s.events.head? = some (.writeReg .src a))
      (hdst : b = s.dst ∨ s.events.head? = some (.writeReg .dst b))
      (hlen : c = s.len ∨ s.events.head? = some (.writeReg .len c))
      (ht : t = { s with events := rest, src := a, dst := b, len := c })
  /-- A write of `CMD` of an idle BDX (R124). -/
  | start (w : Word) (rest : List Event) (hb : s.busy = false) (he : s.events = .writeReg .cmd w :: rest)
      (h : startCommand w { s with events := rest } = .next t)
  /-- A host access that touches no register, or a turn of an idle BDX (R40, R320). -/
  | host (mem : Memory) (events : List Event) (seen : List Observation)
      (hmem : mem = s.mem ∨ ∃ a v, s.events.head? = some (.memWrite a v) ∧ mem = s.mem.write a.toNat v)
      (ht : t = { s with mem := mem, events := events, seen := seen })
  /-- The next step of the running command (R127, R128). -/
  | turn (i : Instr) (events : List Event) (pick tick : Nat) (hb : s.busy = true) (hd : decode s.cmd = .ok i)
      (h : exec i { s with events := events, pick := pick, tick := tick } = .next t)

/-- A turn of BDX is no step of an idle one, and a step of the running command otherwise. -/
theorem stepKind_of_bdxTurn {s t : State} {p tick : Nat} {rest : List Event}
    (h : bdxTurn p { s with events := rest, tick := tick } = .next t) (ht : s.busy = false → tick = s.tick) :
    StepKind s t := by
  obtain ⟨hb, rfl⟩ | ⟨hb, i, hd, h⟩ := bdxTurn_next h
  · obtain rfl := ht hb
    exact .host s.mem rest s.seen (.inl rfl) rfl
  · exact .turn i rest p tick hb hd h

theorem stepKind_of_freeTurn {s t : State} (h : freeTurn s = .next t) : StepKind s t := by
  obtain ⟨-, rfl⟩ | ⟨hb, h⟩ := freeTurn_next h
  · exact .host t.mem t.events t.seen (.inl rfl) rfl
  · exact stepKind_of_bdxTurn h fun hidle => absurd (hidle.symm.trans hb) Bool.false_ne_true

theorem stepKind_of_writeReg {s t : State} {r : Reg} {v : Word} {rest : List Event}
    (he : s.events = .writeReg r v :: rest) (h : writeReg r v { s with events := rest } = .next t) : StepKind s t := by
  have hhead : s.events.head? = some (.writeReg r v) := by rw [he]; rfl
  obtain ⟨hb, rfl⟩ | ⟨hb, ⟨rfl, rfl⟩ | ⟨rfl, rfl⟩ | ⟨rfl, rfl⟩ | ⟨rfl, hc⟩ | ⟨-, rfl⟩⟩ := writeReg_next h
  · exact .busyWrite r v rest hb he rfl
  · exact .operands v s.dst s.len rest hb (.inr hhead) (.inl rfl) (.inl rfl) rfl
  · exact .operands s.src v s.len rest hb (.inl rfl) (.inr hhead) (.inl rfl) rfl
  · exact .operands s.src s.dst v rest hb (.inl rfl) (.inl rfl) (.inr hhead) rfl
  · exact .start v rest hb he hc
  · exact .host s.mem rest s.seen (.inl rfl) rfl

/-- The list is complete. -/
theorem stepKind_of_step {s t : State} (h : step s = .next t) : StepKind s t := by
  obtain ⟨-, h⟩ | ⟨e, rest, he, h⟩ := step_next h
  · exact stepKind_of_freeTurn h
  · obtain ⟨r, v, rfl, h⟩ | ⟨r, -, rfl⟩ | ⟨a, v, rfl, -, rfl⟩ | ⟨a, -, -, rfl⟩ | ⟨-, -, h⟩ | ⟨-, -, rfl⟩ | ⟨rfl, rfl⟩ |
      ⟨p, -, h⟩ := h
    · exact stepKind_of_writeReg he h
    · exact .host s.mem rest _ (.inl rfl) rfl
    · exact .host _ rest s.seen (.inr ⟨a, v, by rw [he]; rfl, rfl⟩) rfl
    · exact .host s.mem rest _ (.inl rfl) rfl
    · exact stepKind_of_freeTurn h
    · exact .host s.mem rest _ (.inl rfl) rfl
    · exact .reset rest he rfl
    · exact stepKind_of_bdxTurn h fun _ => rfl

/-- The head of the script of a reset step. -/
theorem head_reset {s : State} {rest : List Event} (he : s.events = .reset :: rest) : s.events.head? = some .reset := by
  rw [he]; rfl

/-! ## The start of a command, refused or not -/

/-- The write of `CMD`: from the top of the start step on, the operand registers, `CMD` and the rest of the frame stay. -/
theorem startCommand_frame {w : Word} {s t : State} (h : startCommand w s = .next t) :
    CommandFrame (beginCommand w s) t := by
  unfold startCommand at h
  split at h
  · cases h
    constructor <;> simp
  · exact exec_frame h

/-! ## The turns that run a command -/

theorem bdxTurn_busy {s : State} {i : Instr} (p : Nat) (hb : s.busy = true) (hd : decode s.cmd = .ok i) :
    bdxTurn p s = exec i { s with pick := p } := by
  simp [bdxTurn, hb, hd]

theorem freeTurn_busy {s : State} {i : Instr} (hb : s.busy = true) (hd : decode s.cmd = .ok i) :
    freeTurn s = exec i { s with tick := s.tick + 1, pick := Config.freePick s.tick } := by
  rw [freeTurn, if_pos hb]
  exact bdxTurn_busy (s := { s with tick := s.tick + 1 }) _ hb hd

theorem freeTurn_idle {s : State} (hb : s.busy = false) : freeTurn s = .next s := by
  simp [freeTurn, hb]

theorem step_wait_busy {s : State} {rest : List Event} (he : s.events = .wait :: rest) (hb : s.busy = true) :
    step s = freeTurn s := by
  simp [step_cons he, takeEvent, hostWait, hb]

theorem step_bdx_busy {s : State} {i : Instr} {p : Nat} {rest : List Event} (he : s.events = .bdx p :: rest)
    (hb : s.busy = true) (hd : decode s.cmd = .ok i) : step s = exec i { s with events := rest, pick := p } := by
  rw [step_cons he]
  exact bdxTurn_busy (s := { s with events := rest }) p hb hd

theorem step_bdx_idle {s : State} {p : Nat} {rest : List Event} (he : s.events = .bdx p :: rest) (hb : s.busy = false) :
    step s = .next { s with events := rest } := by
  simp [step_cons he, takeEvent, bdxTurn, hb]

/-! ## Every step of a command keeps the built tables (R34, R195) -/

theorem TablesKept.of_tables {s t : State}
    (h : t.tv4 = s.tv4 ∧ t.tv8 = s.tv8 ∧ t.tv16 = s.tv16 ∧ t.t4 = s.t4 ∧ t.t8 = s.t8 ∧ t.t16 = s.t16) :
    TablesKept s t := by
  obtain ⟨h4, h8, h16, ht4, ht8, ht16⟩ := h
  exact ⟨fun hv => ⟨h4.trans hv, ht4⟩, fun hv => ⟨h8.trans hv, ht8⟩, fun hv => ⟨h16.trans hv, ht16⟩⟩

theorem startExpand_tablesKept (i : Instr) (s : State) : TablesKept s (startExpand i s) := by
  obtain ⟨code, info, -, h⟩ | ⟨-, h⟩ := startExpand_cases i s <;> rw [h]
  · exact .of_tables ⟨rfl, rfl, rfl, rfl, rfl, rfl⟩
  · have hk := buildTables_kept (tableNamed i) s
    constructor <;> simp only [launch_tv4, launch_tv8, launch_tv16, launch_t4, launch_t8, launch_t16]
    exacts [hk.four, hk.eight, hk.sixteen]

theorem exec_tablesKept {i : Instr} {s t : State} (h : exec i s = .next t) : TablesKept s t := by
  obtain ⟨block, he⟩ | ⟨-, he⟩ := exec_cases i <;> rw [he] at h
  · obtain ⟨-, rfl⟩ | ⟨-, h⟩ := runExpand_next h
    · exact startExpand_tablesKept i s
    · obtain ⟨-, rfl⟩ | ⟨k, -, -, h⟩ := busyExpand_next h
      · exact .of_tables ⟨rfl, rfl, rfl, rfl, rfl, rfl⟩
      · obtain ⟨-, -, rfl⟩ := chunkStep_next h
        exact .of_tables ⟨rfl, rfl, rfl, rfl, rfl, rfl⟩
  · obtain ⟨-, rfl⟩ | ⟨-, rfl⟩ := runTableBuild_next h
    · have hk := buildTables_kept (tableNamed i) s
      exact ⟨hk.four, hk.eight, hk.sixteen⟩
    · exact .of_tables ⟨rfl, rfl, rfl, rfl, rfl, rfl⟩

theorem startCommand_tablesKept {w : Word} {s t : State} (h : startCommand w s = .next t) : TablesKept s t := by
  unfold startCommand at h
  split at h
  · cases h
    exact .of_tables ⟨rfl, rfl, rfl, rfl, rfl, rfl⟩
  · have hk := exec_tablesKept h
    exact ⟨hk.four, hk.eight, hk.sixteen⟩

theorem step_tablesKept {s t : State} (h : step s = .next t) (hr : s.events.head? ≠ some .reset) : TablesKept s t := by
  cases stepKind_of_step h with
  | reset rest he ht => exact absurd (head_reset he) hr
  | busyWrite r v rest hb he ht => subst ht; exact .of_tables ⟨rfl, rfl, rfl, rfl, rfl, rfl⟩
  | operands a b c rest hb hsrc hdst hlen ht => subst ht; exact .of_tables ⟨rfl, rfl, rfl, rfl, rfl, rfl⟩
  | start w rest hb he h => have hk := startCommand_tablesKept h; exact ⟨hk.four, hk.eight, hk.sixteen⟩
  | host mem events seen hmem ht => subst ht; exact .of_tables ⟨rfl, rfl, rfl, rfl, rfl, rfl⟩
  | turn i events pick tick hb hd h => have hk := exec_tablesKept h; exact ⟨hk.four, hk.eight, hk.sixteen⟩

/-! ## The sticky `FEVER` has no part in a start step (R292) -/

/-- The state with `FEVER` set, and all else as it was. -/
def withFever (s : State) : State := { s with fever := true }

@[simp] theorem withFever_tv4 (s : State) : (withFever s).tv4 = s.tv4 := rfl
@[simp] theorem withFever_tv8 (s : State) : (withFever s).tv8 = s.tv8 := rfl
@[simp] theorem withFever_tv16 (s : State) : (withFever s).tv16 = s.tv16 := rfl
@[simp] theorem withFever_busy (s : State) : (withFever s).busy = s.busy := rfl

theorem build4_withFever (s : State) : build4 (withFever s) = withFever (build4 s) := by
  obtain ⟨hv, hb⟩ | ⟨hv, hb⟩ := build4_cases s <;> rw [hb, build4, withFever_tv4, hv] <;> rfl

theorem build8_withFever (s : State) : build8 (withFever s) = withFever (build8 s) := by
  have he : entries8 (withFever (build4 s)) = entries8 (build4 s) := by unfold entries8 readT4; rfl
  obtain ⟨hv, hb⟩ | ⟨hv, hb⟩ := build8_cases s <;>
    rw [hb, build8, build4_withFever, withFever_tv8, build4_tv8, hv, he] <;> rfl

theorem build16_withFever (s : State) : build16 (withFever s) = withFever (build16 s) := by
  have he : entries16 (withFever (build8 s)) = entries16 (build8 s) := by unfold entries16 readT8; rfl
  obtain ⟨hv, hb⟩ | ⟨hv, hb⟩ := build16_cases s <;>
    rw [hb, build16, build8_withFever, withFever_tv16, build8_tv16, hv, he] <;> simp [withFever]

theorem buildTables_withFever (n : Option TableName) (s : State) :
    buildTables n (withFever s) = withFever (buildTables n s) :=
  match n with
  | none => rfl
  | some .t4 => build4_withFever s
  | some .t8 => build8_withFever s
  | some .t16 => build16_withFever s

theorem loadVT_withFever (i : Instr) (s : State) : loadVT i (withFever s) = withFever (loadVT i s) := by
  cases i <;> rfl

theorem launch_withFever (i : Instr) (s : State) : launch i (withFever s) = withFever (launch i s) := by
  rw [launch, buildTables_withFever, loadVT_withFever]
  rfl

theorem startExpand_withFever (i : Instr) (s : State) : startExpand i (withFever s) = withFever (startExpand i s) := by
  have hf : startFault i (withFever s) = startFault i s := rfl
  rw [startExpand, startExpand, hf]
  split
  · rfl
  · exact launch_withFever i s

/-- A start step on a state with `FEVER` set differs in `FEVER` only. -/
theorem startCommand_withFever {w : Word} {s t : State} (hb : s.busy = false) (h : startCommand w s = .next t) :
    startCommand w (withFever s) = .next (withFever t) := by
  unfold startCommand at h ⊢
  split at h
  · cases h
    rfl
  · rename_i i _
    rw [show beginCommand w (withFever s) = withFever (beginCommand w s) from rfl]
    have hb' : (beginCommand w s).busy = false := hb
    obtain ⟨block, he⟩ | ⟨-, he⟩ := exec_cases i <;> rw [he] at h ⊢
    · rw [runExpand, if_neg (by simp [hb])] at h
      rw [runExpand, if_neg (by simp [hb]), startExpand_withFever]
      cases h
      rfl
    · rw [runTableBuild_idle i hb'] at h
      rw [runTableBuild_idle i (s := withFever (beginCommand w s)) hb', buildTables_withFever]
      cases h
      rfl

/-! ## The statements -/

/-- Settles O12: only the operand writes and the start step, both on an idle BDX, change one of the four registers. -/
theorem operandRegistersChangeOnlyByHostWrites : Obligations.OperandRegistersChangeOnlyByHostWrites := by
  intro s t h hr
  cases stepKind_of_step h with
  | reset rest he ht => exact absurd (head_reset he) hr
  | busyWrite r v rest hb he ht => subst ht; exact ⟨absurd rfl, absurd rfl, absurd rfl, absurd rfl⟩
  | operands a b c rest hb hsrc hdst hlen ht =>
    subst ht
    exact ⟨fun hne => ⟨hb, hsrc.resolve_left hne⟩, fun hne => ⟨hb, hdst.resolve_left hne⟩,
      fun hne => ⟨hb, hlen.resolve_left hne⟩, absurd rfl⟩
  | start w rest hb he h =>
    have hf := startCommand_frame h
    exact ⟨absurd hf.src, absurd hf.dst, absurd hf.len, fun _ => ⟨hb, by rw [he, hf.cmd]; rfl⟩⟩
  | host mem events seen hmem ht => subst ht; exact ⟨absurd rfl, absurd rfl, absurd rfl, absurd rfl⟩
  | turn i events pick tick hb hd h =>
    have hf := exec_frame h
    exact ⟨absurd hf.src, absurd hf.dst, absurd hf.len, absurd hf.cmd⟩

/-- Settles O14: the one step that sets `BUSYERR` breaks the rules. -/
theorem hostThatKeepsTheRulesSetsNoBusyErr : Obligations.HostThatKeepsTheRulesSetsNoBusyErr := by
  intro s t h hs hrules
  cases stepKind_of_step h with
  | reset rest he ht => subst ht; rfl
  | busyWrite r v rest hb he ht =>
    have hkeeps := hrules (.writeReg r v) (by rw [he]; rfl)
    simp [keepsHazardRules, hb] at hkeeps
  | operands a b c rest hb hsrc hdst hlen ht => subst ht; exact hs
  | start w rest hb he h => exact (startCommand_frame h).busyErr.trans hs
  | host mem events seen hmem ht => subst ht; exact hs
  | turn i events pick tick hb hd h => exact (exec_frame h).busyErr.trans hs

/-- Settles O55: every step but a reset keeps the built tables. -/
theorem builtTablesNeverChangeUntilReset : Obligations.BuiltTablesNeverChangeUntilReset := fun _ _ h hr =>
  have hk := step_tablesKept h hr
  ⟨hk.four, hk.eight, hk.sixteen⟩

/-- Settles O44: the start step clears all of a fault's report but `FEVER`, and runs the same whatever `FEVER` is. -/
theorem faultLeavesNoTraceButFever : Obligations.FaultLeavesNoTraceButFever := by
  intro s t w rest code info hb he h
  rw [step_writeCmd_idle hb he] at h
  rw [step_writeCmd_idle (s := raiseFault code info s) hb he]
  exact startCommand_withFever (s := { s with events := rest }) hb h

/-- Settles O6: row by row; the write of `CMD` holds the word because every start step keeps it. -/
theorem registerAccessesFollowTheTable : Obligations.RegisterAccessesFollowTheTable := by
  refine ⟨fun s r v rest => step_writeReg_busy, fun s v rest hb => ?_, fun s r rest he => by rw [step_cons he]; rfl,
    fun s => ⟨rfl, rfl, rfl, rfl, rfl, rfl, rfl, rfl⟩⟩
  have hrow {r : Reg} (he : s.events = .writeReg r v :: rest) : step s = writeReg r v { s with events := rest } :=
    step_cons he
  refine ⟨?_, ?_, ?_, fun he => ?_, ?_, ?_, ?_, ?_⟩
  case refine_4 =>
    obtain ⟨t, ht⟩ : ∃ t, startCommand v { s with events := rest } = .next t := by
      obtain ⟨_, -, h⟩ | ⟨_, -, h, t, ht⟩ := startCommand_idle (w := v) (s := { s with events := rest }) hb
      · exact ⟨_, h⟩
      · exact ⟨t, h.trans ht⟩
    exact ⟨t, ht, (step_writeCmd_idle hb he).trans ht, (startCommand_frame ht).cmd⟩
  all_goals
    intro he
    simp [hrow he, writeReg, hb]

/-- `STATUS` reads 0 after a reset (R310). -/
theorem statusWord_applyReset (s : State) : statusWord (applyReset s) = 0 := by
  simp [statusWord, FCode.code]

/-- Settles O9: the reset event is `applyReset`. -/
theorem resetClearsEverythingButCapAndMemory : Obligations.ResetClearsEverythingButCapAndMemory := fun s rest he =>
  ⟨applyReset { s with events := rest }, step_cons he, rfl, rfl, rfl, rfl, statusWord_applyReset _, rfl, rfl, rfl, rfl,
    rfl, rfl, rfl, rfl, rfl, rfl, rfl, rfl, rfl, fun _ => rfl, rfl, rfl⟩

/-- Settles O10: the fields of the state after reset. -/
theorem stateAfterReset : Obligations.StateAfterReset :=
  ⟨rfl, rfl, rfl, rfl, rfl, rfl, rfl, rfl, rfl, rfl, fun _ => rfl⟩

/-- Settles O15: an idle BDX has no turn to take. -/
theorem idleBdxDoesNothing : Obligations.IdleBdxDoesNothing := fun _ hb =>
  ⟨fun he => (step_nil he).trans (freeTurn_idle hb), fun _ _ he => step_bdx_idle he hb⟩

/-- Settles O16: the busy WAIT is a free turn, which keeps the script and the log. -/
theorem waitPollsUntilBusyFalls : Obligations.WaitPollsUntilBusyFalls := by
  refine fun s rest he => ⟨fun hb => ?_, fun hb => ⟨step_wait_busy he hb, fun t ht => ?_⟩⟩
  · simp [step_cons he, takeEvent, hostWait, hb, observe]
  · have hf := freeTurn_frame (step_wait_busy he hb ▸ ht)
    exact ⟨hf.events, hf.seen⟩

/-- Settles O17: the write of `CMD`, the scheduled turn, the free turn, and the write that `withFetchWord` places. -/
theorem stepRunsTheDecodedCommand : Obligations.StepRunsTheDecodedCommand := by
  refine ⟨fun s w i rest hb he hd => step_writeCmd_of_decode hb he hd, fun s i p rest hb he hd => step_bdx_busy he hb hd,
    fun s i hb he hd => ?_, fun s i w hw hd => ?_⟩
  · have hfree : step s = freeTurn s := he.elim step_nil fun ⟨_, he⟩ => step_wait_busy he hb
    exact hfree.trans (freeTurn_busy hb hd)
  · have hword : tableWord 32 w = BitVec.ofNat 32 w := congrArg _ (Nat.mod_eq_of_lt hw)
    have hplace : s.withFetchWord 32 w = placeCommand (BitVec.ofNat 32 w) s := congrArg (placeCommand · s) hword
    rw [hplace]
    exact step_writeCmd_of_decode (placeCommand_busy _ s) (placeCommand_events _ s) hd

end Sys2Proof.Machine
end

section
/-! SUPPORT. The step of a chunk of a running expand command (spec 40_command_and_oracle.md R127): every group lies in its chunk
and ends where the next one begins, the accesses are those of the checked ranges, and the block is the expansion of the group;
with these, the statements on the steps of each kernel. -/

namespace Sys2Proof.Machine

/-! ## Groups (R126, R201, R231) -/

theorem granularity_pos (i : Instr) : 0 < granularity i := by
  cases i <;> exact Nat.succ_pos _

/-- The size of a group: that of the vector cut, the granularity, or for XLUT16 what is left of a pair. -/
theorem groupSize_cases (i : Instr) (sk len p : Nat) :
    (∃ vls, vectorSelect i = some vls ∧ groupSize i sk len p = vectorGroupSize (laneCount vls) sk len p) ∨
    (vectorSelect i = none ∧ 0 < granularity i ∧ groupSize i sk len p = granularity i) ∨
    (vectorSelect i = none ∧ granularity i = 1 ∧ groupSize i sk len p = if 2 ≤ len - p then 2 else 1) := by
  cases i with
  | xvzip vls nch | xvtbl vls nch => exact .inl ⟨vls, rfl, rfl⟩
  | xlut16 nch => exact .inr (.inr ⟨rfl, rfl, rfl⟩)
  | xscl | xw8 | xw16 | xw32 | xw64 | xben | xbenk | xlau3 | xlau4 | xlut4 | xlut8 | tbld4 | tbld8 | tbld16 =>
    exact .inr (.inl ⟨rfl, granularity_pos _, rfl⟩)

/-- A vector command's group that begins in the chunk ends in it, where the next begins (R231). -/
theorem vectorGroup_fits {nb sk len p : Nat} (hnb : 0 < nb)
    (hb : p < headLen nb sk len ∨ nb ∣ p - headLen nb sk len ∨ headLen nb sk len + bodyCount nb sk len * nb ≤ p)
    (hp : p < len) :
    0 < vectorGroupSize nb sk len p ∧ p + vectorGroupSize nb sk len p ≤ len ∧
    (p + vectorGroupSize nb sk len p < headLen nb sk len ∨
      nb ∣ p + vectorGroupSize nb sk len p - headLen nb sk len ∨
      headLen nb sk len + bodyCount nb sk len * nb ≤ p + vectorGroupSize nb sk len p) := by
  have hend := headLen_add_body_le nb sk len
  obtain hhead | hlo := Nat.lt_or_ge p (headLen nb sk len)
  · rw [vectorGroupSize_head hhead]
    refine ⟨one_pos, hp, ?_⟩
    obtain hlt | heq : p + 1 < headLen nb sk len ∨ p + 1 - headLen nb sk len = 0 := by omega
    · exact .inl hlt
    · exact .inr (.inl (heq ▸ Nat.dvd_zero nb))
  obtain hbody | htail := Nat.lt_or_ge p (headLen nb sk len + bodyCount nb sk len * nb)
  · rw [vectorGroupSize_body hlo hbody]
    have hdvd : nb ∣ p - headLen nb sk len := (hb.resolve_left hlo.not_gt).resolve_right hbody.not_ge
    have hnext : nb ∣ p + nb - headLen nb sk len := by
      rw [Nat.sub_add_comm hlo]
      exact (Nat.dvd_add_right hdvd).mpr dvd_rfl
    obtain ⟨q, hq⟩ := hdvd
    have hlt : nb * q < nb * bodyCount nb sk len := by rw [Nat.mul_comm nb (bodyCount _ _ _)]; omega
    have hle : nb * (q + 1) ≤ nb * bodyCount nb sk len := Nat.mul_le_mul_left nb (Nat.lt_of_mul_lt_mul_left hlt)
    rw [Nat.mul_succ, Nat.mul_comm nb (bodyCount _ _ _)] at hle
    exact ⟨hnb, by omega, .inr (.inl hnext)⟩
  · rw [vectorGroupSize_tail htail]
    exact ⟨one_pos, hp, .inr (.inr (htail.trans (Nat.le_succ p)))⟩

/-- A group that begins in a chunk ends in it, where the next one begins. -/
theorem group_fits {i : Instr} {sk len p : Nat} (hg : granularity i ∣ len) (hb : atGroupBoundary i sk len p)
    (hp : p < len) :
    0 < groupSize i sk len p ∧ p + groupSize i sk len p ≤ len ∧
      atGroupBoundary i sk len (p + groupSize i sk len p) := by
  unfold atGroupBoundary at hb ⊢
  obtain ⟨vls, hv, hs⟩ | ⟨hv, hpos, hs⟩ | ⟨hv, hone, hs⟩ := groupSize_cases i sk len p <;> simp only [hv, hs] at hb ⊢
  · exact vectorGroup_fits (laneCount_pos vls) hb hp
  · refine ⟨hpos, ?_, (Nat.dvd_add_right hb).mpr dvd_rfl⟩
    have hrest : granularity i ∣ len - p := Nat.dvd_sub hg hb
    have := Nat.le_of_dvd (Nat.sub_pos_of_lt hp) hrest
    omega
  · rw [hone]
    exact ⟨by split <;> decide, by split <;> omega, one_dvd _⟩

/-! ## Blocks (R131) -/

/-- The block formula of each expand command's kernel; a table build has none. -/
def blockOf : Instr → State → List Byte → List Byte
  | .xscl _ => blockXscl
  | .xw8 _ => blockXw8
  | .xw16 _ => blockXw16
  | .xw32 _ => blockXw32
  | .xw64 _ => blockXw64
  | .xben _ => blockXben
  | .xbenk _ => blockXbenk
  | .xlau3 _ => blockXlau3
  | .xlau4 _ => blockXlau4
  | .xlut4 _ => blockXlut4
  | .xlut8 _ => blockXlut8
  | .xlut16 _ => blockXlut16
  | .xvzip vls _ => blockXvzip vls
  | .xvtbl vls _ => blockXvtbl vls
  | .tbld4 | .tbld8 | .tbld16 => fun _ _ => []

/-- The meaning of an expand command is `runExpand` with its kernel's formula. -/
theorem exec_eq_runExpand {i : Instr} (hi : isExpand i = true) (s : State) : exec i s = runExpand i (blockOf i) s := by
  cases i with
  | tbld4 | tbld8 | tbld16 => cases hi
  | _ => rfl

/-- A formula that computes `dbl_8`, on a group of one byte given by its length. -/
theorem block_of_formula_length {f : Byte → BitVec 16} (hf : ∀ v, f v = dbl 16 v) {v : List Byte} (hv : v.length = 1) :
    unpackBE 2 (f (packBE 8 v)) = expand v := by
  obtain ⟨b, rfl⟩ := List.length_eq_one_iff.mp hv
  exact block_of_formula hf b

/-- A vector command's group is one byte or a vector. -/
theorem vectorGroupSize_eq (nb sk len p : Nat) : vectorGroupSize nb sk len p = 1 ∨ vectorGroupSize nb sk len p = nb := by
  unfold vectorGroupSize
  split_ifs <;> simp

/-- While a command runs, its block is the expansion of any group of the size that its cut gives. -/
theorem blockOf_eq_expand {i : Instr} {s : State} (ht : TablesSound s) (hr : Running i s) (hi : isExpand i = true)
    {v : List Byte} {sk len p : Nat} (hv : v.length = groupSize i sk len p) : blockOf i s v = expand v := by
  cases i with
  | xscl => exact block_of_formula_length scalarLoop_eq_dbl hv
  | xw8 => exact block_of_formula_length (fun v => opt_eq_dbl (j := 3) rfl v) hv
  | xw16 => exact block_of_ladder (j := 4) (n := 2) rfl hv
  | xw32 => exact block_of_ladder (j := 5) (n := 4) rfl hv
  | xw64 => exact block_of_ladder (j := 6) (n := 8) rfl hv
  | xben => exact block_of_formula_length mul1_eq_dbl hv
  | xbenk => exact block_of_formula_length mul2_eq_dbl hv
  | xlau3 => exact block_of_formula_length square3_eq_dbl hv
  | xlau4 => exact block_of_formula_length square4_eq_dbl hv
  | xlut4 => exact blockXlut4_eq_expand (ht.four (hr.table .t4 rfl)) v
  | xlut8 => exact block_of_formula_length (ht.eight (hr.table .t8 rfl)) hv
  | xlut16 =>
    refine blockXlut16_eq_expand (ht.sixteen (hr.table .t16 rfl)) ?_
    simp only [groupSize] at hv
    split at hv
    · exact .inr hv
    · exact .inl hv
  | xvzip vls nch => exact blockXvzip_eq_expand s (hv ▸ vectorGroupSize_eq _ sk len p)
  | xvtbl vls nch =>
    have h4 := ht.four (hr.table .t4 rfl)
    exact blockXvtbl_eq_expand h4 (fun j hj => (hr.vtLoaded vls nch rfl j hj).trans (h4 _).symm)
      (hv ▸ vectorGroupSize_eq _ sk len p)
  | tbld4 | tbld8 | tbld16 => cases hi

/-! ## Where the groups and blocks lie (R125, R137) -/

/-- A chunk lies in the data (R261). -/
theorem chunkStart_add_chunkLen_le (L n k : Nat) : chunkStart L n k + chunkLen L n k ≤ L :=
  chunkStart_succ L n k ▸ Nat.min_le_right _ _

/-- A chunk ends before every later one starts (R262). -/
theorem chunkEnd_le_chunkStart {L n j k : Nat} (h : j < k) : chunkStart L n j + chunkLen L n j ≤ chunkStart L n k := by
  rw [← chunkStart_succ]
  exact min_le_min_right L (Nat.mul_le_mul_right _ h)

/-- An access to a part of a range that is not bad faults nowhere (R286). -/
theorem accessFault_of_not_badRange {s : State} {a n b m : Nat} (h : ¬badRange s.params a n) (hm : 0 < m) (hlo : a ≤ b)
    (hhi : b + m ≤ a + n) : accessFault s b m = none := by
  rw [accessFault_eq_none]
  constructor
  · by_contra hend
    exact h ⟨by omega, .inl (show Config.addressSpace < a + n by omega)⟩
  · rw [← Bool.not_eq_false, memOkRange_eq_false_iff]
    rintro ⟨x, hx, hx', hbad⟩
    exact h ⟨by omega, .inr ⟨x, by omega, by omega, hbad⟩⟩

/-- The state after the step of chunk `k` (R127), its block given as the expansion of its group. -/
def afterGroup (i : Instr) (k : Nat) (s : State) : State :=
  { s with
    mem := s.mem.writeBytes (nextOutput i s k) (expand (s.mem.readBytes (nextInput i s k) (nextGroupSize i s k)))
    pos := s.pos.set k (cursor s k + nextGroupSize i s k) }

section ChunkSteps
variable {i : Instr} {s : State} (hi : isExpand i = true) (hr : Running i s)
include hi hr

/-- The next group of a chunk with work is not empty, ends in the chunk, and ends where the next one begins. -/
theorem Running.nextGroup {k : Nat} (hk : k ∈ chunksWithWork i s) :
    0 < nextGroupSize i s k ∧ cursor s k + nextGroupSize i s k ≤ chunkLength i s k ∧
      atGroupBoundary i (chunkSource i s k) (chunkLength i s k) (cursor s k + nextGroupSize i s k) := by
  obtain ⟨hlt, hwork⟩ := mem_chunksWithWork.mp hk
  exact group_fits ((hr.accepted hi).lengths k hlt) (hr.boundary k hlt) hwork

/-- The next group lies in the input range (R137). -/
theorem Running.nextInput_mem {k : Nat} (hk : k ∈ chunksWithWork i s) :
    s.src.toNat ≤ nextInput i s k ∧ nextInput i s k + nextGroupSize i s k ≤ s.src.toNat + s.len.toNat := by
  obtain ⟨-, hfit, -⟩ := hr.nextGroup hi hk
  have := chunkStart_add_chunkLen_le s.len.toNat (chunkCount i) k
  unfold nextInput chunkSource
  unfold chunkLength at hfit
  omega

/-- The next block lies in the output range (R137). -/
theorem Running.nextOutput_mem {k : Nat} (hk : k ∈ chunksWithWork i s) :
    s.dst.toNat ≤ nextOutput i s k ∧
      nextOutput i s k + 2 * nextGroupSize i s k ≤ s.dst.toNat + 2 * s.len.toNat := by
  obtain ⟨-, hfit, -⟩ := hr.nextGroup hi hk
  have := chunkStart_add_chunkLen_le s.len.toNat (chunkCount i) k
  unfold nextOutput chunkTarget
  unfold chunkLength at hfit
  omega

/-- The next block of any chunk lies outside the output of the bytes that any chunk has consumed (R67). -/
theorem Running.written_not_mem_nextOutput {k j q y : Nat} (hk : k ∈ chunksWithWork i s) (hj : j < chunkCount i)
    (hq : q < cursor s j) (hy : y < 2) :
    ¬(nextOutput i s k ≤ chunkTarget i s j + (2 * q + y) ∧
      chunkTarget i s j + (2 * q + y) < nextOutput i s k + 2 * nextGroupSize i s k) := by
  obtain ⟨-, hfit, -⟩ := hr.nextGroup hi hk
  have hin := hr.inChunk j hj
  have hjk := @chunkEnd_le_chunkStart s.len.toNat (chunkCount i) j k
  have hkj := @chunkEnd_le_chunkStart s.len.toNat (chunkCount i) k j
  unfold nextOutput chunkTarget
  unfold chunkLength at hfit hin
  obtain hlt | rfl | hlt := Nat.lt_trichotomy j k
  · have := hjk hlt
    omega
  · omega
  · have := hkj hlt
    omega

/-- The checks of the start step cover both accesses of a chunk's step, and its block is the expansion of its group. -/
theorem Running.chunkStep_eq (ht : TablesSound s) {k : Nat} (hk : k ∈ chunksWithWork i s) :
    chunkStep i (blockOf i) k s = .next (afterGroup i k s) := by
  have hacc := hr.accepted hi
  obtain ⟨hpos, -, -⟩ := hr.nextGroup hi hk
  obtain ⟨hin, hin'⟩ := hr.nextInput_mem hi hk
  obtain ⟨hout, hout'⟩ := hr.nextOutput_mem hi hk
  have hinput : accessFault s (nextInput i s k) (nextGroupSize i s k) = none :=
    accessFault_of_not_badRange (inputBad_eq_false_iff.mp hacc.input) hpos hin hin'
  have houtput : accessFault s (nextOutput i s k) (2 * nextGroupSize i s k) = none :=
    accessFault_of_not_badRange (outputBad_eq_false_iff.mp hacc.output) (by omega) hout hout'
  have hblock := blockOf_eq_expand ht hr hi (memory_readBytes_length s.mem (nextInput i s k) (nextGroupSize i s k))
  simp only [chunkStep, hinput, houtput, hblock, afterGroup]

/-- The block lies in the address space. -/
theorem Running.block_fits {k : Nat} (hk : k ∈ chunksWithWork i s) :
    nextOutput i s k + (expand (s.mem.readBytes (nextInput i s k) (nextGroupSize i s k))).length
      ≤ Config.addressSpace := by
  obtain ⟨-, hout'⟩ := hr.nextOutput_mem hi hk
  have hend : ¬2 ^ 32 < s.dst.toNat + 2 * s.len.toNat := fun hpast =>
    outputBad_eq_false_iff.mp (hr.accepted hi).output ⟨by have := s.dst.isLt; omega, .inl hpast⟩
  rw [expand_length_eq, memory_readBytes_length]
  unfold Config.addressSpace
  omega

/-- What the step of a chunk leaves in memory: the block, and every other byte as it was. -/
theorem Running.read_afterGroup (hm : s.mem.wf = true) {k : Nat} (hk : k ∈ chunksWithWork i s) (a : Nat) :
    (afterGroup i k s).mem.read a =
      if nextOutput i s k ≤ a ∧ a < nextOutput i s k + 2 * nextGroupSize i s k then
        (expand (s.mem.readBytes (nextInput i s k) (nextGroupSize i s k))).getD (a - nextOutput i s k) 0
      else s.mem.read a := by
  rw [afterGroup, memory_read_writeBytes hm _ (hr.block_fits hi hk), expand_length_eq, memory_readBytes_length]

end ChunkSteps

/-! ## Whose turn it is (R266) -/

theorem chunkToMove_mem {i : Instr} {s : State} {k : Nat} (h : chunkToMove i s = some k) : k ∈ chunksWithWork i s :=
  List.mem_of_getElem? h

/-- Where a chunk has work, the turn is some chunk's. -/
theorem exists_chunkToMove {i : Instr} {s : State} (h : chunksWithWork i s ≠ []) : ∃ k, chunkToMove i s = some k :=
  ⟨_, List.getElem?_eq_getElem (Nat.mod_lt _ (List.length_pos_of_ne_nil h))⟩

/-- The turn of a running command is the step of the chunk whose turn it is. -/
theorem busyExpand_of_chunkToMove {i : Instr} {s : State} (block : State → List Byte → List Byte) {k : Nat}
    (h : chunkToMove i s = some k) : busyExpand i block s = chunkStep i block k s := by
  unfold chunkToMove at h
  unfold busyExpand
  cases hw : chunksWithWork i s with
  | nil => simp [hw] at h
  | cons c cs =>
    rw [hw] at h
    simp only [List.getD_eq_getElem?_getD, h, Option.getD_some]

/-- The step of a running command at the turn of chunk `k`. -/
theorem exec_chunkToMove {i : Instr} {s : State} (hi : isExpand i = true) (hr : Running i s) (ht : TablesSound s)
    (hb : s.busy = true) {k : Nat} (hk : chunkToMove i s = some k) : exec i s = .next (afterGroup i k s) := by
  rw [exec_eq_runExpand hi, runExpand, if_pos hb, busyExpand_of_chunkToMove _ hk,
    hr.chunkStep_eq hi ht (chunkToMove_mem hk)]

/-- A step of a running expand command: the completion where no chunk has work, else the step of the chunk whose turn it is. -/
theorem exec_running_cases {i : Instr} {s : State} (hi : isExpand i = true) (hr : Running i s) (ht : TablesSound s)
    (hb : s.busy = true) :
    (chunksWithWork i s = [] ∧ exec i s = .next (completeCommand s)) ∨
    ∃ k, k ∈ chunksWithWork i s ∧ exec i s = .next (afterGroup i k s) := by
  by_cases hw : chunksWithWork i s = []
  · exact .inl ⟨hw, exec_completes hb hw⟩
  · obtain ⟨k, hk⟩ := exists_chunkToMove hw
    exact .inr ⟨k, chunkToMove_mem hk, exec_chunkToMove hi hr ht hb hk⟩

/-! ## The statements -/

/-- Where chunk `k` moves it takes its next group. -/
theorem takesGroupsOf_of_size {i : Instr} (hi : isExpand i = true) {g : State → Nat → Nat}
    (hg : ∀ s k, nextGroupSize i s k = g s k) : takesGroupsOf i g := by
  intro s k hinv hb hr hk
  have hw := chunkToMove_mem hk
  rw [← hg]
  refine ⟨_, exec_chunkToMove hi hr hinv.tables hb hk, fun j hj => ?_, fun a ha => ?_, rfl⟩
  · rw [hr.read_afterGroup hi hinv.memory hw, if_pos (by omega), Nat.add_sub_cancel_left]
  · rw [hr.read_afterGroup hi hinv.memory hw, if_neg (by omega)]

/-- Settles O45: the group is one byte. -/
theorem xsclStepWritesTheExpansion : Obligations.XsclStepWritesTheExpansion := fun _ =>
  takesGroupsOf_of_size rfl fun _ _ => rfl

/-- Settles O46: the groups are of 1, 2, 4 and 8 bytes. -/
theorem ladderStepsWriteTheExpansion : Obligations.LadderStepsWriteTheExpansion := fun _ =>
  ⟨takesGroupsOf_of_size rfl fun _ _ => rfl, takesGroupsOf_of_size rfl fun _ _ => rfl,
    takesGroupsOf_of_size rfl fun _ _ => rfl, takesGroupsOf_of_size rfl fun _ _ => rfl⟩

/-- Settles O47: the groups are of one byte. -/
theorem multiplyAndSquareStepsWriteTheExpansion : Obligations.MultiplyAndSquareStepsWriteTheExpansion := fun _ =>
  ⟨takesGroupsOf_of_size rfl fun _ _ => rfl, takesGroupsOf_of_size rfl fun _ _ => rfl,
    takesGroupsOf_of_size rfl fun _ _ => rfl, takesGroupsOf_of_size rfl fun _ _ => rfl⟩

/-- Settles O48: the group of XLUT16 is a pair where two bytes are left. -/
theorem lookupStepsWriteTheExpansion : Obligations.LookupStepsWriteTheExpansion := fun _ =>
  ⟨takesGroupsOf_of_size rfl fun _ _ => rfl, takesGroupsOf_of_size rfl fun _ _ => rfl,
    takesGroupsOf_of_size rfl fun _ _ => rfl⟩

/-- Settles O49: the group is that of the vector cut. -/
theorem xvzipStepsWriteTheExpansion : Obligations.XvzipStepsWriteTheExpansion := fun _ _ =>
  takesGroupsOf_of_size rfl fun _ _ => rfl

/-- Settles O50: the group is that of the vector cut. -/
theorem xvtblStepsWriteTheExpansion : Obligations.XvtblStepsWriteTheExpansion := fun _ _ =>
  takesGroupsOf_of_size rfl fun _ _ => rfl

end Sys2Proof.Machine
end

section
/-! SUPPORT. The invariant is inductive: it holds at reset, and every kind of step keeps it, the start step by its checks and
the step of a chunk by the cut into groups; with this, the statements on what holds along every run (spec 10_state.md R28,
20_memory.md R66 and R67, 40_command_and_oracle.md R127, 60_exceptions.md R280). -/

namespace Sys2Proof.Machine

/-! ## What the invariant's parts depend on -/

/-- The checks depend on the operands and the constants of the hardware only. -/
theorem Accepts.congr {i : Instr} {s t : State} (h : Accepts i s) (hsrc : t.src = s.src) (hdst : t.dst = s.dst)
    (hlen : t.len = s.len) (hparams : t.params = s.params) : Accepts i t where
  vectorLength := by rw [hparams]; exact h.vectorLength
  input := by rw [inputBad, hparams, hsrc, hlen]; exact h.input
  output := by rw [outputBad, hparams, hdst, hlen]; exact h.output
  disjoint := by rw [rangesOverlap, hsrc, hdst, hlen]; exact h.disjoint
  lengths := by unfold chunkLength; rw [hlen]; exact h.lengths

/-- Memory, the script, the log, the turn and `BUSYERR` have no part in what is so of a running command. -/
theorem Running.withHost {i : Instr} {s : State} (h : Running i s) (mem : Memory) (events : List Event)
    (seen : List Observation) (pick tick : Nat) (busyErr : Bool) :
    Running i { s with
      mem := mem, events := events, seen := seen, pick := pick, tick := tick, busyErr := busyErr } where
  command := h.command
  accepted hi := (h.accepted hi).congr rfl rfl rfl rfl
  cursors := h.cursors
  inChunk := h.inChunk
  boundary := h.boundary
  table n := by cases n <;> exact h.table _
  vtLoaded := h.vtLoaded

/-- `CMD` holds one command. -/
theorem Running.unique {i j : Instr} {s : State} (h : Running i s) (hd : decode s.cmd = .ok j) : j = i := by
  have := hd.symm.trans h.command
  cases this
  rfl

/-- While BDX is busy, the command that `CMD` holds runs. -/
theorem Inv.running {i : Instr} {s : State} (h : Inv s) (hb : s.busy = true) (hd : decode s.cmd = .ok i) :
    Running i s := by
  obtain ⟨j, hr⟩ := h.busyRuns hb
  obtain rfl := hr.unique hd
  exact hr

/-- Of the same parts, the invariant asks only that memory be canonical. -/
theorem Inv.withHost {s : State} (h : Inv s) {mem : Memory} (hm : mem.wf = true) (events : List Event)
    (seen : List Observation) (pick tick : Nat) (busyErr : Bool) :
    Inv { s with mem := mem, events := events, seen := seen, pick := pick, tick := tick, busyErr := busyErr } where
  memory := hm
  busyNotDone := h.busyNotDone
  busyNotFault := h.busyNotFault
  doneNotFault := h.doneNotFault
  faultHasCode := h.faultHasCode
  infoOnlyOfFault := h.infoOnlyOfFault
  faultRemembered := h.faultRemembered
  tables := h.tables.congr rfl rfl rfl rfl rfl rfl
  idleHasNoCursor := h.idleHasNoCursor
  busyRuns hb := (h.busyRuns hb).imp fun _ hr => hr.withHost mem events seen pick tick busyErr

/-- On an idle BDX the operand registers have no part in the invariant either. -/
theorem Inv.withOperands {s : State} (h : Inv s) (hb : s.busy = false) (src dst len : Word) (events : List Event) :
    Inv { s with events := events, src := src, dst := dst, len := len } where
  memory := h.memory
  busyNotDone := h.busyNotDone
  busyNotFault := h.busyNotFault
  doneNotFault := h.doneNotFault
  faultHasCode := h.faultHasCode
  infoOnlyOfFault := h.infoOnlyOfFault
  faultRemembered := h.faultRemembered
  tables := h.tables.congr rfl rfl rfl rfl rfl rfl
  idleHasNoCursor := h.idleHasNoCursor
  busyRuns hbusy := absurd (hb.symm.trans hbusy) Bool.false_ne_true

/-! ## Reset and the start step -/

theorem inv_applyReset {s : State} (hm : s.mem.wf = true) : Inv (applyReset s) := by
  constructor
  case memory => exact hm
  case tables => constructor <;> simp
  all_goals simp

/-- The state at the top of a start step on an idle BDX: nothing is reported, nothing runs (R124, R28). -/
structure Fresh (s : State) : Prop where
  inv : Inv s
  busy : s.busy = false
  done : s.done = false
  fault : s.fault = false
  fcode : s.fcode = .none
  finfo : s.finfo = 0

theorem Inv.beginCommand {s : State} (h : Inv s) (hb : s.busy = false) (w : Word) : Fresh (beginCommand w s) where
  inv :=
    { memory := h.memory
      busyNotDone := by simp
      busyNotFault := by simp
      doneNotFault := by simp
      faultHasCode := by simp
      infoOnlyOfFault := by simp
      faultRemembered := by simp
      tables := h.tables.congr rfl rfl rfl rfl rfl rfl
      idleHasNoCursor := h.idleHasNoCursor
      busyRuns := fun hbusy => absurd (hb.symm.trans hbusy) Bool.false_ne_true }
  busy := hb
  done := rfl
  fault := rfl
  fcode := rfl
  finfo := rfl

/-- The report of a fault (R290). -/
theorem Fresh.raiseFault {s : State} (h : Fresh s) {code : FCode} (hc : code ≠ .none) (info : Word) :
    Inv (raiseFault code info s) where
  memory := h.inv.memory
  busyNotDone := by simp [h.busy]
  busyNotFault := by simp [h.busy]
  doneNotFault := by simp [h.done]
  faultHasCode := by simp [hc]
  infoOnlyOfFault := by simp
  faultRemembered := by simp
  tables := h.inv.tables.congr rfl rfl rfl rfl rfl rfl
  idleHasNoCursor := h.inv.idleHasNoCursor
  busyRuns hbusy := absurd (h.busy.symm.trans hbusy) Bool.false_ne_true

/-- A start step that leaves a command running, and no report. -/
theorem Fresh.starts {s t : State} (h : Fresh s) (hmem : t.mem = s.mem) (hb : t.busy = true) (hdone : t.done = s.done)
    (hfault : t.fault = s.fault) (hcode : t.fcode = s.fcode) (hinfo : t.finfo = s.finfo)
    (ht : TablesSound t) {i : Instr} (hr : Running i t) : Inv t where
  memory := hmem ▸ h.inv.memory
  busyNotDone := by simp [hdone, h.done]
  busyNotFault := by simp [hfault, h.fault]
  doneNotFault := by simp [hdone, h.done]
  faultHasCode := by simp [hfault, hcode, h.fault, h.fcode]
  infoOnlyOfFault _ := hinfo.trans h.finfo
  faultRemembered := by simp [hfault, h.fault]
  tables := ht
  idleHasNoCursor := by simp [hb]
  busyRuns _ := ⟨i, hr⟩

/-- The table a command names is valid after its builds (R194). -/
theorem tableValid_buildTables {o : Option TableName} {n : TableName} (h : o = some n) (s : State) :
    tableValid (buildTables o s) n = true := by
  subst h
  cases n <;> simp [buildTables, tableValid]

/-- A start step sets every cursor to 0 (R124). -/
theorem cursor_launch (i : Instr) (s : State) (k : Nat) : cursor (launch i s) k = 0 := by
  simp only [cursor, launch_pos, List.getD_eq_getElem?_getD, List.getElem?_replicate]
  split <;> rfl

/-- Right after its start step an expand command runs, every cursor at 0 (R124). -/
theorem running_launch {i : Instr} {s : State} (ht : TablesSound s) (hd : decode s.cmd = .ok i) (ha : Accepts i s) :
    Running i (launch i s) := by
  constructor
  case command => simpa using hd
  case accepted => exact fun _ => ha.congr (by simp) (by simp) (by simp) (by simp)
  case cursors => simp
  case inChunk => intro k _; simp [cursor_launch]
  case boundary => intro k _; rw [cursor_launch]; exact atGroupBoundary_zero i _ _
  case table =>
    intro n hn
    have hvalid := tableValid_buildTables hn s
    cases n <;> simpa [tableValid] using hvalid
  case vtLoaded =>
    rintro vls nch rfl j hj
    exact (vtLane_loadVT vls nch (build4 s) hj).trans ((build4_sound ht).four (build4_tv4 s) _)

theorem Fresh.launch {i : Instr} {s : State} (h : Fresh s) (hd : decode s.cmd = .ok i) (ha : Accepts i s) :
    Inv (launch i s) :=
  h.starts (by simp) (by simp) (by simp) (by simp) (by simp) (by simp)
    ((buildTables_sound (tableNamed i) h.inv.tables).congr (by simp) (by simp) (by simp) (by simp) (by simp) (by simp))
    (running_launch h.inv.tables hd ha)

/-- No check of a start step reports the code 0 (R30). -/
theorem startFault_code_ne_none {i : Instr} {s : State} {code : FCode} {info : Word}
    (h : startFault i s = some (code, info)) : code ≠ .none := by
  rintro rfl
  unfold startFault at h
  split_ifs at h
  · cases h
  · cases h
  · cases h
  · cases h
  · split at h <;> cases h

theorem Fresh.startExpand {i : Instr} {s : State} (h : Fresh s) (hd : decode s.cmd = .ok i) : Inv (startExpand i s) := by
  obtain ⟨code, info, hf, hs⟩ | ⟨hf, hs⟩ := startExpand_cases i s <;> rw [hs]
  · exact h.raiseFault (startFault_code_ne_none hf) info
  · exact h.launch hd (startFault_eq_none_iff.mp hf)

/-- A table build has no chunk. -/
theorem Fresh.tableBuild {i : Instr} {s : State} (h : Fresh s) (hi : isExpand i = false) (hn : chunkCount i = 0)
    (hd : decode s.cmd = .ok i) : Inv { buildTables (tableNamed i) s with busy := true } := by
  refine h.starts (by simp) rfl (by simp) (by simp) (by simp)
    (by simp) ((buildTables_sound (tableNamed i) h.inv.tables).congr rfl rfl rfl rfl rfl rfl) (i := i) ?_
  constructor
  case command => simpa using hd
  case accepted => exact fun hexp => absurd (hi.symm.trans hexp) Bool.false_ne_true
  case cursors => simp [h.inv.idleHasNoCursor h.busy, hn]
  case inChunk => intro k hk; simp [hn] at hk
  case boundary => intro k hk; simp [hn] at hk
  case table =>
    intro n ht
    have hvalid := tableValid_buildTables ht s
    cases n <;> exact hvalid
  case vtLoaded =>
    rintro vls nch rfl
    cases hi

theorem Inv.startCommand {s t : State} (h : Inv s) (hb : s.busy = false) {w : Word}
    (ht : startCommand w s = .next t) : Inv t := by
  have hfresh := h.beginCommand hb w
  obtain ⟨e, -, hc⟩ | ⟨i, hd, hc, -⟩ := startCommand_idle (w := w) hb <;> rw [hc] at ht
  · cases ht
    exact hfresh.raiseFault (by decide) w
  · cases hi : isExpand i with
    | true =>
      rw [exec_expand_idle hi hfresh.busy] at ht
      cases ht
      exact hfresh.startExpand hd
    | false =>
      obtain ⟨hn, he⟩ : chunkCount i = 0 ∧ ∀ u, exec i u = runTableBuild i u := by
        cases i with
        | tbld4 | tbld8 | tbld16 => exact ⟨rfl, fun _ => rfl⟩
        | _ => cases hi
      rw [he, runTableBuild_idle i hfresh.busy] at ht
      cases ht
      exact hfresh.tableBuild hi hn hd

/-! ## The steps of a running command -/

/-- The completion (R128). -/
theorem Inv.completeCommand {s : State} (h : Inv s) (hb : s.busy = true) : Inv (completeCommand s) where
  memory := h.memory
  busyNotDone := by simp
  busyNotFault := by simp
  doneNotFault := fun hdf => h.busyNotFault ⟨hb, hdf.2⟩
  faultHasCode := h.faultHasCode
  infoOnlyOfFault := h.infoOnlyOfFault
  faultRemembered := h.faultRemembered
  tables := h.tables.congr rfl rfl rfl rfl rfl rfl
  idleHasNoCursor := fun _ => rfl
  busyRuns := by simp

/-- The cursors after the step of chunk `k`. -/
theorem cursor_afterGroup {i : Instr} {s : State} (hr : Running i s) {j k : Nat} (hj : j < chunkCount i) :
    cursor (afterGroup i k s) j = if j = k then cursor s k + nextGroupSize i s k else cursor s j := by
  have hlen : j < s.pos.length := hr.cursors ▸ hj
  by_cases hjk : j = k
  · subst hjk
    simp [cursor, afterGroup, hlen]
  · simp [cursor, afterGroup, hjk, Ne.symm hjk]

theorem Running.afterGroup {i : Instr} {s : State} (hi : isExpand i = true) (hr : Running i s) {k : Nat}
    (hk : k ∈ chunksWithWork i s) : Running i (afterGroup i k s) := by
  obtain ⟨-, hfit, hnext⟩ := hr.nextGroup hi hk
  constructor
  case command => exact hr.command
  case accepted => exact fun hi => (hr.accepted hi).congr rfl rfl rfl rfl
  case cursors => exact (List.length_set ..).trans hr.cursors
  case inChunk =>
    intro j hj
    rw [cursor_afterGroup hr hj]
    split
    · subst j; exact hfit
    · exact hr.inChunk j hj
  case boundary =>
    intro j hj
    rw [cursor_afterGroup hr hj]
    split
    · subst j; exact hnext
    · exact hr.boundary j hj
  case table => intro n; cases n <;> exact hr.table _
  case vtLoaded => exact hr.vtLoaded

theorem Inv.afterGroup {i : Instr} {s : State} (h : Inv s) (hb : s.busy = true) (hi : isExpand i = true)
    (hr : Running i s) {k : Nat} (hk : k ∈ chunksWithWork i s) : Inv (afterGroup i k s) where
  memory := memory_wf_writeBytes h.memory _ (hr.block_fits hi hk)
  busyNotDone := h.busyNotDone
  busyNotFault := h.busyNotFault
  doneNotFault := h.doneNotFault
  faultHasCode := h.faultHasCode
  infoOnlyOfFault := h.infoOnlyOfFault
  faultRemembered := h.faultRemembered
  tables := h.tables.congr rfl rfl rfl rfl rfl rfl
  idleHasNoCursor := fun hidle => absurd (hidle.symm.trans hb) Bool.false_ne_true
  busyRuns _ := ⟨i, hr.afterGroup hi hk⟩

/-- A step of a running command from a state of the invariant: the completion, or the step of a chunk with work. -/
theorem exec_busy_cases {i : Instr} {s : State} (h : Inv s) (hb : s.busy = true) (hr : Running i s) :
    exec i s = .next (completeCommand s) ∨
    isExpand i = true ∧ ∃ k, k ∈ chunksWithWork i s ∧ exec i s = .next (afterGroup i k s) := by
  cases hi : isExpand i with
  | true => exact (exec_running_cases hi hr h.tables hb).imp And.right fun hk => ⟨rfl, hk⟩
  | false =>
    refine .inl (exec_completes hb ?_)
    cases i with
    | tbld4 | tbld8 | tbld16 => rfl
    | _ => cases hi

theorem Inv.exec {i : Instr} {s t : State} (h : Inv s) (hb : s.busy = true) (hr : Running i s)
    (ht : exec i s = .next t) : Inv t := by
  obtain hc | ⟨hi, k, hk, hc⟩ := exec_busy_cases h hb hr <;> rw [hc] at ht <;> cases ht
  · exact h.completeCommand hb
  · exact h.afterGroup hb hi hr hk

/-- The invariant is inductive. -/
theorem Inv.step {s t : State} (h : Inv s) (ht : step s = .next t) : Inv t := by
  cases stepKind_of_step ht with
  | reset rest he ht => exact ht ▸ inv_applyReset h.memory
  | busyWrite r v rest hb he ht => exact ht ▸ h.withHost h.memory rest s.seen s.pick s.tick true
  | operands a b c rest hb hsrc hdst hlen ht => exact ht ▸ h.withOperands hb a b c rest
  | start w rest hb he hc => exact (h.withHost h.memory rest s.seen s.pick s.tick s.busyErr).startCommand hb hc
  | host mem events seen hmem ht =>
    have hwf : mem.wf = true := by
      obtain rfl | ⟨a, v, -, rfl⟩ := hmem
      · exact h.memory
      · exact memory_wf_write h.memory a.isLt v
    exact ht ▸ h.withHost hwf events seen s.pick s.tick s.busyErr
  | turn i events pick tick hb hd hx =>
    have hr := (h.running hb hd).withHost s.mem events s.seen pick tick s.busyErr
    exact (h.withHost h.memory events s.seen pick tick s.busyErr).exec hb hr hx

/-! ## No step stops the machine (R280) -/

theorem bdxTurn_ne_fault {s : State} (h : Inv s) (p : Nat) (f : Fault) : bdxTurn p s ≠ .fault f := by
  cases hb : s.busy with
  | false => simp [bdxTurn, hb]
  | true =>
    obtain ⟨i, hr⟩ := h.busyRuns hb
    have h' := h.withHost h.memory s.events s.seen p s.tick s.busyErr
    have hr' := hr.withHost s.mem s.events s.seen p s.tick s.busyErr
    rw [bdxTurn_busy p hb hr.command]
    obtain hx | ⟨-, k, -, hx⟩ := exec_busy_cases h' hb hr' <;> rw [hx] <;> simp

theorem freeTurn_ne_fault {s : State} (h : Inv s) (f : Fault) : freeTurn s ≠ .fault f := by
  unfold freeTurn
  split
  · exact bdxTurn_ne_fault (h.withHost h.memory s.events s.seen s.pick (s.tick + 1) s.busyErr) _ f
  · simp

theorem writeReg_ne_fault (r : Reg) (v : Word) (s : State) (f : Fault) : writeReg r v s ≠ .fault f := by
  unfold writeReg
  split
  · simp
  · rename_i hb
    cases r
    case cmd =>
      obtain ⟨_, -, hc⟩ | ⟨_, -, hc, t, ht⟩ := startCommand_idle (w := v) (Bool.eq_false_iff.mpr hb)
      · simp [hc]
      · simp [hc, ht]
    all_goals simp

theorem takeEvent_ne_fault {s : State} (h : Inv s) (e : Event) (rest : List Event) (f : Fault) :
    takeEvent e rest s ≠ .fault f := by
  cases e with
  | writeReg r v => exact writeReg_ne_fault r v _ f
  | readReg r => simp [takeEvent]
  | memWrite a v => simp only [takeEvent, hostMemWrite]; split <;> simp
  | memRead a => simp only [takeEvent, hostMemRead]; split <;> simp
  | wait =>
    simp only [takeEvent, hostWait]
    split
    · exact freeTurn_ne_fault h f
    · simp
  | reset => simp [takeEvent]
  | bdx p => exact bdxTurn_ne_fault (h.withHost h.memory rest s.seen s.pick s.tick s.busyErr) p f

/-! ## Exactly one of `BUSY`, `DONE` and `FAULT` (R28) -/

/-- In the invariant no two of the bits are 1, so exactly one is where any is. -/
theorem Inv.exactlyOneOutcome_iff {s : State} (h : Inv s) :
    exactlyOneOutcome s = true ↔ s.busy = true ∨ s.done = true ∨ s.fault = true := by
  have hbd := h.busyNotDone
  have hbf := h.busyNotFault
  have hdf := h.doneNotFault
  simp only [exactlyOneOutcome, Bool.or_eq_true, Bool.and_eq_true, Bool.not_eq_true', ← Bool.not_eq_true]
  tauto

/-- Every step of a command leaves one of the bits 1. -/
theorem exec_outcome {i : Instr} {s t : State} (h : exec i s = .next t) :
    t.busy = true ∨ t.done = true ∨ t.fault = true := by
  obtain ⟨block, he⟩ | ⟨-, he⟩ := exec_cases i <;> rw [he] at h
  · obtain ⟨-, rfl⟩ | ⟨hb, h⟩ := runExpand_next h
    · obtain ⟨code, info, -, hs⟩ | ⟨-, hs⟩ := startExpand_cases i s <;> rw [hs]
      · exact .inr (.inr rfl)
      · exact .inl rfl
    · obtain ⟨-, rfl⟩ | ⟨k, -, -, h⟩ := busyExpand_next h
      · exact .inr (.inl rfl)
      · obtain ⟨-, -, rfl⟩ := chunkStep_next h
        exact .inl hb
  · obtain ⟨-, rfl⟩ | ⟨-, rfl⟩ := runTableBuild_next h
    · exact .inl rfl
    · exact .inr (.inl rfl)

theorem startCommand_outcome {w : Word} {s t : State} (h : startCommand w s = .next t) :
    t.busy = true ∨ t.done = true ∨ t.fault = true := by
  unfold startCommand at h
  split at h
  · cases h
    exact .inr (.inr rfl)
  · exact exec_outcome h

/-- No step but a reset clears the last of the three bits. -/
theorem step_outcome {s t : State} (h : step s = .next t) (hr : s.events.head? ≠ some .reset)
    (hs : s.busy = true ∨ s.done = true ∨ s.fault = true) : t.busy = true ∨ t.done = true ∨ t.fault = true := by
  cases stepKind_of_step h with
  | reset rest he ht => exact absurd (head_reset he) hr
  | busyWrite r v rest hb he ht => subst ht; exact hs
  | operands a b c rest hb hsrc hdst hlen ht => subst ht; exact hs
  | start w rest hb he hc => exact startCommand_outcome hc
  | host mem events seen hmem ht => subst ht; exact hs
  | turn i events pick tick hb hd hx => exact exec_outcome hx

/-! ## What a step changes of memory (R66, R67) -/

theorem startExpand_mem (i : Instr) (s : State) : (startExpand i s).mem = s.mem := by
  obtain ⟨code, info, -, h⟩ | ⟨-, h⟩ := startExpand_cases i s <;> rw [h]
  · rfl
  · exact launch_mem i s

/-- A start step touches no memory (R124, R290). -/
theorem startCommand_mem {w : Word} {s t : State} (hb : s.busy = false) (h : startCommand w s = .next t) :
    t.mem = s.mem := by
  unfold startCommand at h
  split at h
  · cases h
    rfl
  · rename_i i _
    obtain ⟨block, he⟩ | ⟨-, he⟩ := exec_cases i <;> rw [he] at h
    · obtain ⟨-, rfl⟩ | ⟨hbusy, -⟩ := runExpand_next h
      · exact startExpand_mem i _
      · exact absurd (hb.symm.trans hbusy) Bool.false_ne_true
    · obtain ⟨-, rfl⟩ | ⟨-, rfl⟩ := runTableBuild_next h
      · exact buildTables_mem _ _
      · rfl

/-- A step that is not the host's write changes memory only as the step of a chunk of the running command does. -/
theorem step_mem_cases {s t : State} (hinv : Inv s) (h : step s = .next t)
    (hw : ∀ b v, s.events.head? ≠ some (.memWrite b v)) :
    t.mem = s.mem ∨ ∃ i k, s.busy = true ∧ isExpand i = true ∧ Running i s ∧ k ∈ chunksWithWork i s ∧
      t.mem = (afterGroup i k s).mem := by
  cases stepKind_of_step h with
  | reset rest he ht => subst ht; exact .inl rfl
  | busyWrite r v rest hb he ht => subst ht; exact .inl rfl
  | operands a b c rest hb hsrc hdst hlen ht => subst ht; exact .inl rfl
  | start w rest hb he hc => exact .inl (startCommand_mem (s := { s with events := rest }) hb hc)
  | host mem events seen hmem ht =>
    subst ht
    exact .inl (hmem.resolve_right fun ⟨a, v, hhead, _⟩ => hw a v hhead)
  | turn i events pick tick hb hd hx =>
    have hr := hinv.running hb hd
    have hinv' := hinv.withHost hinv.memory events s.seen pick tick s.busyErr
    have hr' := hr.withHost s.mem events s.seen pick tick s.busyErr
    obtain hc | ⟨hi, k, hk, hc⟩ := exec_busy_cases hinv' hb hr' <;> rw [hc] at hx <;> cases hx
    · exact .inl rfl
    · exact .inr ⟨i, k, hb, hi, hr, hk, rfl⟩

/-! ## The statements -/

/-- Settles O18: nothing is built, nothing runs, nothing is reported. -/
theorem invariantHoldsAtReset : Obligations.InvariantHoldsAtReset := inv_applyReset (s := State.reset) rfl

/-- Settles O19: by the kind of the step. -/
theorem everyStepKeepsTheInvariant : Obligations.EveryStepKeepsTheInvariant := fun _ _ h ht => h.step ht

/-- Settles O20: in the invariant a busy BDX runs an accepted command, whose step answers a next state. -/
theorem noStepFaultsFromTheInvariant : Obligations.NoStepFaultsFromTheInvariant := by
  intro s f h
  unfold step
  split
  · exact freeTurn_ne_fault h f
  · exact takeEvent_ne_fault h _ _ f

/-- Settles O13: the invariant excludes two of the bits, and every step leaves one. -/
theorem exactlyOneOfBusyDoneFaultFromTheFirstCommandOn :
    Obligations.ExactlyOneOfBusyDoneFaultFromTheFirstCommandOn := by
  intro s t hinv h hr
  rw [hinv.exactlyOneOutcome_iff, (hinv.step h).exactlyOneOutcome_iff]
  refine ⟨step_outcome h hr, fun w hw => ?_⟩
  cases hb : s.busy with
  | true => exact step_outcome h hr (.inl hb)
  | false =>
    obtain ⟨rest, he⟩ := List.head?_eq_some_iff.mp hw
    exact startCommand_outcome ((step_writeCmd_idle hb he).symm.trans h)

/-- Settles O52: the turn that names the place of chunk `k` among the chunks with work. -/
theorem anyChunkWithWorkMayMoveNext : Obligations.AnyChunkWithWorkMayMoveNext := by
  intro i s k rest hi hinv hb hr hk hcur
  have hw : k ∈ chunksWithWork i s := mem_chunksWithWork.mpr ⟨hk, hcur⟩
  obtain ⟨p, hp, hpk⟩ := List.getElem_of_mem hw
  refine ⟨(hr.nextGroup hi hw).1, p, afterGroup i k { s with events := rest, pick := p }, ?_, hb, rfl⟩
  have hmove : chunkToMove i { s with events := rest, pick := p } = some k := by
    show (chunksWithWork i s)[p % (chunksWithWork i s).length]? = some k
    rw [Nat.mod_eq_of_lt hp, List.getElem?_eq_getElem hp, hpk]
  calc step { s with events := .bdx p :: rest }
    _ = exec i { s with events := rest, pick := p } :=
      step_bdx_busy (s := { s with events := .bdx p :: rest }) rfl hb hr.command
    _ = .next (afterGroup i k { s with events := rest, pick := p }) :=
      exec_chunkToMove hi (hr.withHost s.mem rest s.seen p s.tick s.busyErr)
        (hinv.tables.congr rfl rfl rfl rfl rfl rfl) hb hmove

/-- Settles O53: the block written lies in the output range, which the checks keep apart from the input range. -/
theorem memoryChangesOnlyInTheOutputRange : Obligations.MemoryChangesOnlyInTheOutputRange := by
  intro s t a hinv h hw hne
  obtain hsame | ⟨i, k, hb, hi, hr, hk, hmem⟩ := step_mem_cases hinv h hw
  · exact absurd (congrArg (Memory.read · a) hsame) hne
  · rw [hmem, hr.read_afterGroup hi hinv.memory hk] at hne
    obtain ⟨hlo, hhi⟩ := hr.nextOutput_mem hi hk
    split at hne
    · have hin : s.dst.toNat ≤ a ∧ a < s.dst.toNat + 2 * s.len.toNat := by omega
      refine ⟨hb, hin.1, hin.2, fun hsrc => ?_⟩
      have hov := rangesOverlap_iff_common_byte.mpr ⟨a, hsrc.1, hsrc.2, hin⟩
      exact Bool.false_ne_true ((hr.accepted hi).disjoint.symm.trans hov)
    · exact absurd rfl hne

/-- Settles O54: the block written lies outside the output of the consumed bytes. -/
theorem writtenOutputIsNotWrittenAgain : Obligations.WrittenOutputIsNotWrittenAgain := by
  intro i s t k q hinv hb hr h hw hk hq
  have hkept : ∀ y < 2, t.mem.read (chunkTarget i s k + (2 * q + y)) = s.mem.read (chunkTarget i s k + (2 * q + y)) := by
    intro y hy
    obtain hsame | ⟨j, c, -, hi, hr', hc, hmem⟩ := step_mem_cases hinv h hw
    · rw [hsame]
    · obtain rfl := hr.unique hr'.command
      rw [hmem, hr.read_afterGroup hi hinv.memory hc, if_neg (hr.written_not_mem_nextOutput hi hc hk hq hy)]
  exact ⟨hkept 0 two_pos, hkept 1 one_lt_two⟩

/-- Settles O56: the write and the read of backed memory, one after the other. -/
theorem hostReadReturnsTheLastWrite : Obligations.HostReadReturnsTheLastWrite := by
  intro s a v rest hinv hok he
  have hread := memory_read_write hinv.memory a.toNat v
  refine ⟨{ s with events := .memRead a :: rest, mem := s.mem.write a.toNat v },
    { s with events := rest, mem := s.mem.write a.toNat v, seen := s.seen ++ [.mem a v] }, ?_, ?_, rfl, rfl,
    fun b hb => (hread b).trans (if_neg hb), rfl⟩
  · simp [step_cons he, takeEvent, hostMemWrite, hok]
  · simp [step, takeEvent, hostMemRead, hok, observe, hread]

end Sys2Proof.Machine
end

section
/-! SUPPORT. A whole expand command (spec 40_command_and_oracle.md R130, R133, R134): from its start step on, what is written so
far is the expansion of what has been consumed, each turn of BDX consumes a group, and where all is consumed the command
completes; with this, the statements on the result of a command under every schedule. -/

namespace Sys2Proof.Machine

/-! ## A canonical memory is given by its bytes (R40) -/

theorem memory_read_cons_self (a : Nat) (v : Byte) (m : Memory) : Memory.read ((a, v) :: m) a = v := if_pos rfl

/-- The first byte listed differs from every canonical memory that begins after it. -/
theorem memory_read_ne_of_below {lo a : Nat} {v : Byte} {m m' : Memory} (hv : v ≠ Memory.blank)
    (hm : Memory.wfFrom lo m' = true) (ha : a < lo) : Memory.read ((a, v) :: m) a ≠ Memory.read m' a := by
  rwa [memory_read_cons_self, memory_read_below hm ha]

theorem memory_ext_from {lo : Nat} {m m' : Memory} (hm : Memory.wfFrom lo m = true) (hm' : Memory.wfFrom lo m' = true)
    (h : ∀ a, m.read a = m'.read a) : m = m' := by
  induction m generalizing lo m' with
  | nil =>
    cases m' with
    | nil => rfl
    | cons c m' =>
      obtain ⟨-, -, hv, -⟩ := (memory_wfFrom_cons lo c.1 c.2 m').mp hm'
      exact absurd (h c.1).symm (memory_read_ne_of_below hv (memory_wfFrom_nil (c.1 + 1)) c.1.lt_succ_self)
  | cons c m ih =>
    obtain ⟨a, v⟩ := c
    obtain ⟨hlo, ha, hv, hrest⟩ := (memory_wfFrom_cons lo a v m).mp hm
    cases m' with
    | nil => exact absurd (h a) (memory_read_ne_of_below hv (memory_wfFrom_nil (a + 1)) a.lt_succ_self)
    | cons c' m' =>
      obtain ⟨b, w⟩ := c'
      obtain ⟨hlo', hb, hw, hrest'⟩ := (memory_wfFrom_cons lo b w m').mp hm'
      obtain hlt | rfl | hlt := Nat.lt_trichotomy a b
      · exact absurd (h a) (memory_read_ne_of_below hv
          ((memory_wfFrom_cons b b w m').mpr ⟨le_rfl, hb, hw, hrest'⟩) hlt)
      · have hvw : v = w := by simpa [memory_read_cons_self] using h a
        have htail : m = m' := ih hrest hrest' fun x => by
          by_cases hx : x = a
          · rw [memory_read_below hrest (by omega), memory_read_below hrest' (by omega)]
          · simpa [Memory.read, hx] using h x
        rw [hvw, htail]
      · exact absurd (h b).symm (memory_read_ne_of_below hw
          ((memory_wfFrom_cons a a v m).mpr ⟨le_rfl, ha, hv, hrest⟩) hlt)

/-- Canonical memories with the same bytes are the same. -/
theorem memory_ext {m m' : Memory} (hm : m.wf = true) (hm' : m'.wf = true) (h : ∀ a, m.read a = m'.read a) : m = m' :=
  memory_ext_from hm hm' h

/-! ## The expansion of a part of the input -/

/-- A byte of an expansion is a byte of the expansion of the one input byte it comes from (R122). -/
theorem getD_expand_eq {bs : List Byte} {j : Nat} (hj : j < 2 * bs.length) :
    (expand bs).getD j 0 = (expand [bs.getD (j / 2) 0]).getD (j % 2) 0 := by
  obtain ⟨k, rfl | rfl⟩ : ∃ k, j = 2 * k ∨ j = 2 * k + 1 := ⟨j / 2, by omega⟩
  · rw [(getD_expand (by omega)).1, show 2 * k / 2 = k by omega, show 2 * k % 2 = 2 * 0 by omega,
      (getD_expand (bs := [_]) (i := 0) one_pos).1]
    rfl
  · rw [(getD_expand (by omega)).2, show (2 * k + 1) / 2 = k by omega, show (2 * k + 1) % 2 = 2 * 0 + 1 by omega,
      (getD_expand (bs := [_]) (i := 0) one_pos).2]
    rfl

theorem getD_expand_readBytes (m : Memory) {a n j : Nat} (hj : j < 2 * n) :
    (expand (m.readBytes a n)).getD j 0 = (expand [m.read (a + j / 2)]).getD (j % 2) 0 := by
  have hlen : j / 2 < (m.readBytes a n).length := by rw [memory_readBytes_length]; omega
  rw [getD_expand_eq (by rwa [memory_readBytes_length]), List.getD_eq_getElem _ 0 hlen, memory_readBytes_getElem]

/-! ## A command under way -/

/-- Byte `x` of the expansion of the input range as it is in `u`. -/
def expansionByte (u : State) (x : Nat) : Byte :=
  (expand (u.mem.readBytes u.src.toNat u.len.toNat)).getD x 0

/-- `s` has the memory of `u` outside the output range. -/
def KeepsOutside (u s : State) : Prop :=
  ∀ a, a < u.dst.toNat ∨ u.dst.toNat + 2 * u.len.toNat ≤ a → s.mem.read a = u.mem.read a

/-- `s` with all that the steps of a running command change as it is in `u`: memory, the cursors, `BUSY`, `DONE`, and the
model's script and turn. -/
def restored (u s : State) : State :=
  { s with
    mem := u.mem, pos := u.pos, busy := u.busy, done := u.done, events := u.events, pick := u.pick, tick := u.tick }

/-- The command `i`, launched in `u`, is under way in `s`: the output of every byte consumed is its expansion, and nothing else
of memory has changed. -/
structure UnderWay (i : Instr) (u s : State) : Prop where
  frame : restored u s = u
  busy : s.busy = true
  inv : Inv s
  running : Running i s
  written : ∀ k < chunkCount i, ∀ x < 2 * cursor s k,
    s.mem.read (chunkTarget i s k + x) = expansionByte u (2 * chunkStart s.len.toNat (chunkCount i) k + x)
  outside : KeepsOutside u s

/-- The command launched in `u` has completed in `s`: the output range holds the expansion, and nothing else of memory has
changed. -/
structure Finished (u s : State) : Prop where
  frame : restored u s = u
  busy : s.busy = false
  done : s.done = true
  wf : s.mem.wf = true
  written : ∀ x < 2 * u.len.toNat, s.mem.read (u.dst.toNat + x) = expansionByte u x
  outside : KeepsOutside u s

/-- The bytes of the input that no chunk has consumed yet. -/
def remaining (i : Instr) (s : State) : Nat :=
  ((List.range (chunkCount i)).map fun k => chunkLength i s k - cursor s k).sum

section UnderWay
variable {i : Instr} {u s : State} (h : UnderWay i u s)
include h

theorem UnderWay.src_eq : s.src = u.src := (congrArg State.src h.frame :)
theorem UnderWay.dst_eq : s.dst = u.dst := (congrArg State.dst h.frame :)
theorem UnderWay.len_eq : s.len = u.len := (congrArg State.len h.frame :)

/-- The script and the turn have no part in it. -/
theorem UnderWay.withTurn (events : List Event) (pick tick : Nat) :
    UnderWay i u { s with events := events, pick := pick, tick := tick } where
  frame := h.frame
  busy := h.busy
  inv := h.inv.withHost h.inv.memory events s.seen pick tick s.busyErr
  running := h.running.withHost s.mem events s.seen pick tick s.busyErr
  written := h.written
  outside := h.outside

/-- Where no chunk has work, every byte of the output range has been written (R262). -/
theorem UnderWay.completeCommand (hn : 0 < chunkCount i) (hw : chunksWithWork i s = []) :
    Finished u (completeCommand s) where
  frame := h.frame
  busy := rfl
  done := rfl
  wf := h.inv.memory
  written x hx := by
    rw [← h.len_eq] at hx
    obtain ⟨k, ⟨hk, hlo, hhi⟩, -⟩ := existsUnique_chunk_of_output hn hx
    have hdone : chunkLen s.len.toNat (chunkCount i) k ≤ cursor s k := chunksWithWork_eq_nil.mp hw k hk
    have hbyte := h.written k hk (x - 2 * chunkStart s.len.toNat (chunkCount i) k) (by omega)
    rw [chunkTarget, Nat.add_assoc, Nat.add_sub_of_le hlo, h.dst_eq] at hbyte
    exact hbyte
  outside := h.outside

variable (hi : isExpand i = true)
include hi

/-- The input of a group is what it was at the launch: the output range is apart from it (R287). -/
theorem UnderWay.read_input {a : Nat} (hlo : s.src.toNat ≤ a) (hhi : a < s.src.toNat + s.len.toNat) :
    s.mem.read a = u.mem.read a := by
  refine h.outside a ?_
  by_contra hout
  rw [← h.dst_eq, ← h.len_eq] at hout
  have hov : rangesOverlap s = true := rangesOverlap_iff_common_byte.mpr ⟨a, hlo, hhi, by omega, by omega⟩
  exact Bool.false_ne_true ((h.running.accepted hi).disjoint.symm.trans hov)

/-- The block that chunk `k` writes next, as a part of the expansion of the input range. -/
theorem UnderWay.block_eq {k : Nat} (hk : k ∈ chunksWithWork i s) {x : Nat} (hlo : 2 * cursor s k ≤ x)
    (hhi : x < 2 * cursor s k + 2 * nextGroupSize i s k) :
    (expand (s.mem.readBytes (nextInput i s k) (nextGroupSize i s k))).getD (x - 2 * cursor s k) 0 =
      expansionByte u (2 * chunkStart s.len.toNat (chunkCount i) k + x) := by
  obtain ⟨hin, hin'⟩ := h.running.nextInput_mem hi hk
  have haddr : nextInput i s k + (x - 2 * cursor s k) / 2 =
      s.src.toNat + (2 * chunkStart s.len.toNat (chunkCount i) k + x) / 2 := by
    unfold nextInput chunkSource
    omega
  have hmod : (x - 2 * cursor s k) % 2 = (2 * chunkStart s.len.toNat (chunkCount i) k + x) % 2 := by omega
  rw [expansionByte, ← h.src_eq, ← h.len_eq, getD_expand_readBytes _ (by omega), getD_expand_readBytes _ (by omega),
    h.read_input hi (by omega) (by omega), haddr, hmod]

theorem UnderWay.afterGroup {k : Nat} (hk : k ∈ chunksWithWork i s) : UnderWay i u (afterGroup i k s) where
  frame := h.frame
  busy := h.busy
  inv := h.inv.afterGroup h.busy hi h.running hk
  running := h.running.afterGroup hi hk
  written j hj x hx := by
    have hout : nextOutput i s k = chunkTarget i s k + 2 * cursor s k := rfl
    show (Machine.afterGroup i k s).mem.read (chunkTarget i s j + x) = _
    have hold : x < 2 * cursor s j → (Machine.afterGroup i k s).mem.read (chunkTarget i s j + x) =
        expansionByte u (2 * chunkStart s.len.toNat (chunkCount i) j + x) := fun hx => by
      have hapart := h.running.written_not_mem_nextOutput hi hk hj (q := x / 2) (y := x % 2) (by omega)
        (Nat.mod_lt x two_pos)
      rw [Nat.div_add_mod] at hapart
      rw [h.running.read_afterGroup hi h.inv.memory hk, if_neg hapart, h.written j hj x hx]
    rw [cursor_afterGroup h.running hj] at hx
    split at hx
    · subst j
      obtain hlt | hge := Nat.lt_or_ge x (2 * cursor s k)
      · exact hold hlt
      · rw [h.running.read_afterGroup hi h.inv.memory hk, if_pos (by omega), hout, Nat.add_sub_add_left]
        exact h.block_eq hi hk hge (by omega)
    · exact hold hx
  outside a ha := by
    obtain ⟨hlo, hhi⟩ := h.running.nextOutput_mem hi hk
    rw [h.dst_eq, h.len_eq] at hhi
    rw [h.dst_eq] at hlo
    rw [h.running.read_afterGroup hi h.inv.memory hk, if_neg (by omega), h.outside a ha]

/-- The step of a chunk leaves fewer bytes. -/
theorem UnderWay.remaining_afterGroup {k : Nat} (hk : k ∈ chunksWithWork i s) :
    remaining i (Machine.afterGroup i k s) < remaining i s := by
  obtain ⟨hpos, hfit, -⟩ := h.running.nextGroup hi hk
  obtain ⟨hlt, hwork⟩ := mem_chunksWithWork.mp hk
  refine List.sum_lt_sum _ _ (fun j hj => ?_) ⟨k, List.mem_range.mpr hlt, ?_⟩
  · show chunkLength i s j - _ ≤ _
    rw [cursor_afterGroup h.running (List.mem_range.mp hj)]
    split
    · subst j; omega
    · exact le_rfl
  · show chunkLength i s k - _ < _
    rw [cursor_afterGroup h.running hlt, if_pos rfl]
    omega

end UnderWay

/-! ## The turns of a schedule -/

/-- Nothing but turns of BDX is left of the script. -/
def OnlyTurns (s : State) : Prop := ∀ e ∈ s.events, ∃ p, e = Event.bdx p

/-- With only turns left, a step on a busy BDX is the next step of its command. -/
theorem step_busy_of_onlyTurns {i : Instr} {s : State} (he : OnlyTurns s) (hb : s.busy = true)
    (hd : decode s.cmd = .ok i) :
    ∃ pick tick, step s = exec i { s with events := s.events.tail, pick := pick, tick := tick } := by
  cases hs : s.events with
  | nil =>
    refine ⟨Config.freePick s.tick, s.tick + 1, ?_⟩
    rw [step_nil hs, freeTurn_busy hb hd, List.tail_nil, ← hs]
  | cons e rest =>
    obtain ⟨p, rfl⟩ := he e (hs ▸ List.mem_cons_self)
    exact ⟨p, s.tick, step_bdx_busy hs hb hd⟩

/-- With only turns left, a step on an idle BDX uses up the turn, if there is one (R320). -/
theorem step_idle_of_onlyTurns {s : State} (he : OnlyTurns s) (hb : s.busy = false) :
    step s = .next { s with events := s.events.tail } := by
  cases hs : s.events with
  | nil => rw [step_nil hs, freeTurn_idle hb, List.tail_nil, ← hs]
  | cons e rest =>
    obtain ⟨p, rfl⟩ := he e (hs ▸ List.mem_cons_self)
    exact step_bdx_idle hs hb

/-- The command has completed, or is under way with fewer than `n` bytes left. -/
def Within (n : Nat) (i : Instr) (u s : State) : Prop := Finished u s ∨ UnderWay i u s ∧ remaining i s < n

/-- One turn of a command under way, scheduled or free. -/
theorem UnderWay.turn {i : Instr} {u s : State} (h : UnderWay i u s) (hi : isExpand i = true) (hn : 0 < chunkCount i)
    (he : OnlyTurns s) : ∃ t, step s = .next t ∧ t.events = s.events.tail ∧ Within (remaining i s) i u t := by
  obtain ⟨pick, tick, hstep⟩ := step_busy_of_onlyTurns he h.busy h.running.command
  have h' := h.withTurn s.events.tail pick tick
  rw [hstep]
  obtain ⟨hw, hx⟩ | ⟨k, hk, hx⟩ := exec_running_cases hi h'.running h'.inv.tables h'.busy
  · exact ⟨_, hx, rfl, .inl (h'.completeCommand hn hw)⟩
  · exact ⟨_, hx, rfl, .inr ⟨h'.afterGroup hi hk, h'.remaining_afterGroup hi hk⟩⟩

/-- Any field that the steps of a command leave alone is what the start step left. -/
theorem Finished.field {u s : State} (h : Finished u s) {α : Type} (f : State → α) : f (restored u s) = f u :=
  congrArg f h.frame

/-- A turn after the completion changes nothing. -/
theorem Finished.turn {u s : State} (h : Finished u s) (he : OnlyTurns s) :
    ∃ t, step s = .next t ∧ t.events = s.events.tail ∧ Finished u t :=
  ⟨_, step_idle_of_onlyTurns he h.busy, rfl,
    ⟨h.frame, h.busy, h.done, h.wf, h.written, h.outside⟩⟩

theorem Within.turn {n : Nat} {i : Instr} {u s : State} (h : Within n i u s) (hi : isExpand i = true)
    (hn : 0 < chunkCount i) (he : OnlyTurns s) :
    ∃ t, step s = .next t ∧ t.events = s.events.tail ∧ Within (n - 1) i u t := by
  obtain hf | ⟨h, hlt⟩ := h
  · obtain ⟨t, hs, het, ht⟩ := hf.turn he
    exact ⟨t, hs, het, .inl ht⟩
  · obtain ⟨t, hs, het, ht⟩ := h.turn hi hn he
    exact ⟨t, hs, het, ht.imp_right fun hu => ⟨hu.1, by omega⟩⟩

/-- A run goes on from the next state. -/
theorem run_succ {s t : State} (h : step s = .next t) (m : Nat) :
    Host.Core.run Sys2Proof.core (m + 1) s = Host.Core.run Sys2Proof.core m t := by
  have hcore : Sys2Proof.core.step s = .next t := h
  simp only [Host.Core.run, hcore]

/-- `m` turns use up `m` events, and bring the completion nearer by `m` bytes at least. -/
theorem Within.run {n : Nat} {i : Instr} {u s : State} (h : Within n i u s) (hi : isExpand i = true)
    (hn : 0 < chunkCount i) (he : OnlyTurns s) (m : Nat) :
    ∃ t : State, Host.Core.run Sys2Proof.core m s = .next t ∧ t.events = s.events.drop m ∧ Within (n - m) i u t := by
  induction m generalizing n s with
  | zero => exact ⟨s, rfl, rfl, h⟩
  | succ m ih =>
    obtain ⟨t, hs, het, ht⟩ := h.turn hi hn he
    have het' : OnlyTurns t := fun e hmem => he e (List.mem_of_mem_tail (het ▸ hmem))
    obtain ⟨t', hrun, het'', ht'⟩ := ih ht het'
    refine ⟨t', (run_succ hs m).trans hrun, ?_, ?_⟩
    · rw [het'', het, List.drop_tail]
    · rwa [Nat.sub_sub, Nat.add_comm 1 m] at ht'

/-! ## The whole command -/

/-- The expand command of a word has a chunk (R94, R97). -/
theorem chunkCount_pos_of_decode {w : Word} {i : Instr} (hd : decode w = .ok i) (hi : isExpand i = true) :
    0 < chunkCount i := by
  have hwf := (encodeOfDecodeIsTheWord w i hd).2
  have hpos : ∀ nch : BitVec 16, (nch != 0) = true → 0 < nch.toNat := fun nch hne =>
    Nat.pos_of_ne_zero fun hz => bne_iff_ne.mp hne (BitVec.eq_of_toNat_eq hz)
  cases i with
  | xvzip vls nch | xvtbl vls nch => exact hpos nch (Bool.and_eq_true_iff.mp hwf).2
  | tbld4 | tbld8 | tbld16 => cases hi
  | _ => exact hpos _ hwf

/-- At the launch all of the input is left. -/
theorem remaining_launch {i : Instr} (hn : 0 < chunkCount i) (s : State) : remaining i (launch i s) = s.len.toNat := by
  unfold remaining chunkLength
  simp only [cursor_launch, Nat.sub_zero, launch_len]
  exact (sum_chunkLen s.len.toNat (chunkCount i) (chunkCount i)).trans (chunkStart_chunkCount hn)

theorem underWay_launch {i : Instr} {s : State} (h : Fresh s) (hd : decode s.cmd = .ok i) (ha : Accepts i s) :
    UnderWay i (launch i s) (launch i s) where
  frame := rfl
  busy := launch_busy i s
  inv := h.launch hd ha
  running := running_launch h.inv.tables hd ha
  written k _ x hx := by rw [cursor_launch] at hx; omega
  outside _ _ := rfl

/-- The state that the start step of the command `i`, written as `w`, leaves of `s`, with `rest` of the script to come. -/
def started (i : Instr) (w : Word) (s : State) (rest : List Event) : State :=
  launch i (beginCommand w { s with events := rest })

/-- From any idle state of the invariant an accepted expand command completes, whatever its schedule is. -/
theorem run_finishes {i : Instr} {w : Word} {s : State} {picks : List Nat} (hi : isExpand i = true)
    (hd : decode w = .ok i) (hinv : Inv s) (hb : s.busy = false) (ha : Accepts i s)
    (he : s.events = .writeReg .cmd w :: picks.map .bdx) :
    ∃ t : State, Host.Core.run Sys2Proof.core (picks.length + s.len.toNat + 2) s = .next t ∧
      Finished (started i w s (picks.map .bdx)) t ∧ t.events = [] := by
  have hn := chunkCount_pos_of_decode hd hi
  have hfresh : Fresh (beginCommand w { s with events := picks.map .bdx }) :=
    (hinv.withHost hinv.memory (picks.map .bdx) s.seen s.pick s.tick s.busyErr).beginCommand hb w
  have hacc : Accepts i (beginCommand w { s with events := picks.map .bdx }) := ha.congr rfl rfl rfl rfl
  have hstart : step s = .next (started i w s (picks.map .bdx)) := by
    rw [step_writeCmd_of_decode hb he hd, exec_expand_idle hi hfresh.busy, startExpand_of_accepts hacc]
    rfl
  have hevents : (started i w s (picks.map .bdx)).events = picks.map .bdx := launch_events i _
  have hturns : OnlyTurns (started i w s (picks.map .bdx)) := fun e hmem => by
    rw [hevents] at hmem
    obtain ⟨p, -, rfl⟩ := List.mem_map.mp hmem
    exact ⟨p, rfl⟩
  have hwithin : Within (s.len.toNat + 1) i (started i w s (picks.map .bdx)) (started i w s (picks.map .bdx)) :=
    .inr ⟨underWay_launch hfresh hd hacc, Nat.lt_succ_of_le (remaining_launch hn _).le⟩
  obtain ⟨t, hrun, het, ht⟩ := hwithin.run hi hn hturns (picks.length + s.len.toNat + 1)
  refine ⟨t, (run_succ hstart _).trans hrun, ht.resolve_right fun hu => ?_, ?_⟩
  · have := hu.2
    omega
  · rw [het, hevents]
    exact List.drop_eq_nil_of_le (by rw [List.length_map]; omega)

section Started
variable (i : Instr) (w : Word) (s : State) (rest : List Event)

/-- The start step touches neither memory nor the operand registers (R124). -/
theorem started_operands :
    (started i w s rest).mem = s.mem ∧ (started i w s rest).src = s.src ∧ (started i w s rest).dst = s.dst ∧
      (started i w s rest).len = s.len := by
  simp [started]

/-- The expansion that is to be written is that of the input range before the start step. -/
theorem expansionByte_started (x : Nat) :
    expansionByte (started i w s rest) x = (expand (s.mem.readBytes s.src.toNat s.len.toNat)).getD x 0 := by
  obtain ⟨hmem, hsrc, -, hlen⟩ := started_operands i w s rest
  rw [expansionByte, hmem, hsrc, hlen]

end Started

/-- The bytes of a finished command are those of the state before it, but for the output range. -/
theorem Finished.read {i : Instr} {w : Word} {s t : State} {rest : List Event}
    (h : Finished (started i w s rest) t) (a : Nat) :
    t.mem.read a =
      if s.dst.toNat ≤ a ∧ a < s.dst.toNat + 2 * s.len.toNat then
        (expand (s.mem.readBytes s.src.toNat s.len.toNat)).getD (a - s.dst.toNat) 0
      else s.mem.read a := by
  obtain ⟨hmem, -, hdst, hlen⟩ := started_operands i w s rest
  have hwritten := h.written
  have houtside := h.outside
  unfold KeepsOutside at houtside
  rw [hmem, hdst, hlen] at houtside
  rw [hdst, hlen] at hwritten
  split
  · obtain ⟨x, rfl⟩ : ∃ x, a = s.dst.toNat + x := ⟨a - s.dst.toNat, by omega⟩
    rw [hwritten x (by omega), expansionByte_started, Nat.add_sub_cancel_left]
  · exact houtside a (by omega)

/-! ## The statements -/

/-- Settles O57: what is under way comes to its end within `LEN + 1` turns. -/
theorem commandWritesTheExpansionInEveryOrder : Obligations.CommandWritesTheExpansionInEveryOrder := by
  intro i w s picks hi hd hinv hb ha he
  obtain ⟨t, hrun, hfin, het⟩ := run_finishes hi hd hinv hb ha he
  have hread := hfin.read
  refine ⟨t, hrun, fun j hj => ?_, fun a hout => ?_, ?_⟩
  · rw [hread, if_pos (by omega), Nat.add_sub_cancel_left]
  · rw [hread, if_neg (by omega)]
  have htables : tablesBuiltUpTo (tableNamed i) s t :=
    tablesBuiltUpTo_congr (launch_builtUpTo i (beginCommand w { s with events := picks.map .bdx }))
      ⟨rfl, rfl, rfl, rfl, rfl, rfl⟩
      ⟨hfin.field State.tv4, hfin.field State.tv8, hfin.field State.tv16, hfin.field State.t4, hfin.field State.t8,
        hfin.field State.t16⟩
  refine ⟨(hfin.field State.src).trans ?_, (hfin.field State.dst).trans ?_, (hfin.field State.len).trans ?_,
    (hfin.field State.cmd).trans ?_, hfin.busy, hfin.done, (hfin.field State.fault).trans ?_,
    (hfin.field State.fcode).trans ?_, (hfin.field State.finfo).trans ?_, (hfin.field State.fever).trans ?_,
    (hfin.field State.busyErr).trans ?_, htables, het⟩ <;> simp [started]

/-- Settles O58: the two memories are canonical and have the same bytes. -/
theorem resultDoesNotDependOnKernelChunksOrOrder : Obligations.ResultDoesNotDependOnKernelChunksOrOrder := by
  intro i j w v s t u picks picks' hi hj hd hd' hinv hb ha ha' hrun hrun'
  have hinvWith (events : List Event) : Inv { s with events := events } :=
    hinv.withHost hinv.memory events s.seen s.pick s.tick s.busyErr
  obtain ⟨t', ht, hfin, -⟩ := run_finishes hi hd (hinvWith (.writeReg .cmd w :: picks.map .bdx)) hb
    (ha.congr rfl rfl rfl rfl) rfl
  obtain ⟨u', hu, hfin', -⟩ := run_finishes hj hd' (hinvWith (.writeReg .cmd v :: picks'.map .bdx)) hb
    (ha'.congr rfl rfl rfl rfl) rfl
  obtain rfl : t' = t := Host.Outcome.next.inj (ht.symm.trans hrun)
  obtain rfl : u' = u := Host.Outcome.next.inj (hu.symm.trans hrun')
  exact memory_ext hfin.wf hfin'.wf fun a => (hfin.read a).trans (hfin'.read a).symm

end Sys2Proof.Machine
end
